-- ==== Sys2Proof/Word.lean ====
section
/-! DEFINITION. The machine words of the port: bytes, 32-bit values, and nothing else. -/

namespace Sys2Proof

/-- One byte on the serial port. -/
abbrev Byte := BitVec 8

/-- A value of 4 bytes: a request parameter, a cursor field value, a counter or a clock stamp. -/
abbrev Word := BitVec 32

/-- Four bytes as one value, most significant byte first (spec/00 Conventions, R186). -/
def Word.ofBytes (a b c d : Byte) : Word := a ++ b ++ c ++ d

end Sys2Proof
end

