-- ==== Sys2Proof/Config.lean ====
section
/-! DEFINITION. What the part fixes (capacities and limits the rules name) and the free values. -/

namespace Sys2Proof.Config

/-- R177: 4 level channels. -/
abbrev channels : Nat := 4
/-- R42, R177: 48 rating points. -/
def ratingPoints : Nat := 48
/-- R64, R177: 8 shift bands. -/
abbrev shiftBands : Nat := 8
/-- R79, R177: 32 verticals. -/
def verticals : Nat := 32
/-- R140, R177: 16 warning rules. -/
abbrev rules : Nat := 16
/-- R177, R179: 35 settings. -/
abbrev settings : Nat := 35

/-- R185, R187: the identity codes. -/
def vendorCode : Int := 0x0B62
/-- R187: the part code. -/
def partCode : Int := 0x01AE
/-- R177: the design revision of the parts the manual describes. -/
def revision : Int := 1

/-- Lowest and highest stage and bed elevation, mm (spec/00 Conventions). -/
def stageMin : Int := -2000
/-- Highest stage, mm. -/
def stageMax : Int := 30000
/-- Highest discharge, L/s. -/
def dischargeMax : Int := 16000000
/-- Largest rate of rise, mm/h. -/
def rateMax : Int := 100000
/-- R3: the limit of a channel reading and offset, mm. -/
def readingMax : Int := 1000000
/-- Lowest distance across the section, cm. -/
def distanceMin : Int := -1000
/-- Highest distance across the section, cm. -/
def distanceMax : Int := 30000
/-- Largest depth, mm. -/
def depthMax : Int := 30000
/-- R115: highest point velocity, mm/s. -/
def velocityMax : Int := 8000
/-- R7, R9: where a gate's pulse count stops and the gate is saturated. -/
def gatePulsesMax : Nat := 1000000
/-- R7: the length of a gate, s. -/
def gateSeconds : Nat := 10
/-- R10: the length of the settling timer, s. -/
def settlingSeconds : Nat := 10
/-- R26: where a disagreement or agreement count stays. -/
def voteCountMax : Nat := 15
/-- R26: where the settlements watched stay. -/
def watchMax : Nat := 255
/-- R100: the arrival window, cm. -/
def arrivalWindow : Int := 5
/-- R125: how far past the arrival depth a sounding is let down, mm. -/
def soundingMargin : Int := 1000
/-- R126: the depth of a surface lowering, mm. -/
def surfaceDepth : Int := 100
/-- R77: the least width of a clipped band, mm. -/
def bandWidthMin : Int := 20

/-- Free value (LOG 9, LOG 10): which of the orders the spec allows is taken when blocks or faults act on one
instant and the orders end in different states. It is applied to a counter of State that every use advances. -/
opaque order : Nat → Nat

end Sys2Proof.Config
end

