-- ==== Sys2Proof/Syntax.lean ====
section
/-! DEFINITION. The commands: one constructor per row of spec/opcode_table.json, with its operands. -/

namespace Sys2Proof

/-- The level of a line. -/
inductive Level where
  | low | high
  deriving DecidableEq, Repr

/-- The direction of a taken change of level on a line (R4). -/
inductive Edge where
  | rising | falling
  deriving DecidableEq, Repr

/-- Which of an encoder's two quadrature lines changed (R2). -/
inductive LinesChanged where
  | lineA | lineB | both
  deriving DecidableEq, Repr

/-- A change on a pair of quadrature lines, with the levels both lines are at after it (R2, R95, R96). -/
structure QuadratureEdge where
  changed : LinesChanged
  a : Level
  b : Level
  deriving DecidableEq, Repr

/-- The two motor drives (6.1). -/
inductive DriveName where
  | traverse | hoist
  deriving DecidableEq, Repr

/-- The five cableway contacts (chapter 6). -/
inductive Contact where
  | home | top | surface | bottom | snag
  deriving DecidableEq, Repr

/-- One level for each contact input. -/
structure ContactLevels where
  home : Level
  top : Level
  surface : Level
  bottom : Level
  snag : Level
  deriving DecidableEq, Repr

/-- What the part finds at its inputs as Reset ends: the four straps (R170), the level each contact input holds (R97),
the level of the mark line of each channel (R19) and the level of the select line, which is low during a select period
(R184). -/
structure ResetPins where
  unitAddress : BitVec 3
  cablewayFitted : Level
  contacts : ContactLevels
  marks : Vector Level Config.channels
  select : Level
  deriving DecidableEq, Repr

/-- R190: what the reset pin does. It is taken low, or power comes; or it rises and Reset ends, with the inputs it
finds. -/
inductive ResetPin where
  | low
  | high (pins : ResetPins)
  deriving DecidableEq, Repr

/-- One of the four level channels. -/
abbrev ChannelNumber := Fin Config.channels

/-- The commands of spec/opcode_table.json, in its order. A request carries its parameter bytes as they stand in
the request frame (R171, R186). -/
inductive Instr where
  | reset (pin : ResetPin)
  | ignoredSelectPeriod (bits : List Bool)
  | frameError (bits : List Bool)
  | overrun (bits : List Bool)
  | unknownRequest (code : Byte) (params : List Byte)
  | fetchFrame (clocked : Nat)
  | identify (params : List Byte)
  | readAttention (params : List Byte)
  | setAttentionMask (params : List Byte)
  | setClock (params : List Byte)
  | readClock (params : List Byte)
  | writeSettings (params : List Byte)
  | readSettings (params : List Byte)
  | readStation (params : List Byte)
  | restart (params : List Byte)
  | configureChannel (params : List Byte)
  | setChannelStage (params : List Byte)
  | readChannel (params : List Byte)
  | setVote (params : List Byte)
  | setCursor (params : List Byte)
  | writeFields (params : List Byte)
  | readEntries (params : List Byte)
  | retirePoint (params : List Byte)
  | copyRating (params : List Byte)
  | adoptRating (params : List Byte)
  | lookup (params : List Byte)
  | defineShift (params : List Byte)
  | retireShift (params : List Byte)
  | readShifts (params : List Byte)
  | retireVertical (params : List Byte)
  | homeCarriage (params : List Byte)
  | clearFault (params : List Byte)
  | setMeter (params : List Byte)
  | startRun (params : List Byte)
  | abortRun (params : List Byte)
  | readRun (params : List Byte)
  | acceptGauging (params : List Byte)
  | defineRule (params : List Byte)
  | armRule (params : List Byte)
  | disarmRule (params : List Byte)
  | acknowledge (params : List Byte)
  | retireRule (params : List Byte)
  | readRule (params : List Byte)
  | quadratureChange (channel : ChannelNumber) (edge : QuadratureEdge)
  | markEdge (channel : ChannelNumber) (edge : Edge)
  | frequencyPulse (channel : ChannelNumber)
  | gateCompletion (channel : ChannelNumber)
  | settlingTimerExpiry (channel : ChannelNumber)
  | stageIntervalExpiry
  | rampExpiry
  | adoptionCompletion
  | clockSecond
  | drivePeriodBoundary
  | traverseCountChange (edge : QuadratureEdge)
  | depthCountChange (edge : QuadratureEdge)
  | contactChange (contact : Contact) (level : Level)
  | jam (drive : DriveName)
  | meterPulse
  | dwellExpiry
  | waitExpiry
  | patternPhaseEnd
  deriving DecidableEq, Repr

end Sys2Proof
end

