-- ==== Sys2Proof/Decode.lean ====
section
/-! DEFINITION. The commands that words spell. No row of spec/opcode_table.json gives bits, so no word spells one. -/

namespace Sys2Proof

/-- The command that a word spells by the table's bits: none, for every word (spec/opcode_table.json: every row has
an empty list of fields). -/
def decodeTableWord (_nbits _w : Nat) : Option Instr := none

end Sys2Proof
end

