-- ==== Sys2Proof/Machine/Settings.lean ====
section
/-! DEFINITION. The 35 settings: identifiers, ranges and defaults (the table before R179), and the store of their
values. -/

namespace Sys2Proof.Machine

/-- The settings of the table before R179, in identifier order. -/
inductive Setting where
  | stageFloor | stageCeiling | minimumPulses | agreementBand | votePersistence | stuckLimit | holdLimit
  | steadyLimit | quietCadence | floodCadence | shiftLimit | rampInterval | rampStep | shiftHalfWidth
  | spanStart | spanEnd | bedTolerance | traverseFastDuty | traverseSlowDuty | hoistDuty
  | traverseCountsPerMetre | hoistCountsPerMetre | homeOffset | slowZone | surfaceSearchLimit | jamTimeout
  | homeLevel | topLevel | surfaceLevel | bottomLevel | snagLevel
  | dwell | minimumDepth | surfaceCoefficient | unsteadyLimit
  deriving DecidableEq, Repr

/-- The identifier of a setting, 1 to 35. -/
def Setting.id : Setting → Nat
  | .stageFloor => 1 | .stageCeiling => 2 | .minimumPulses => 3 | .agreementBand => 4 | .votePersistence => 5
  | .stuckLimit => 6 | .holdLimit => 7 | .steadyLimit => 8 | .quietCadence => 9 | .floodCadence => 10
  | .shiftLimit => 11 | .rampInterval => 12 | .rampStep => 13 | .shiftHalfWidth => 14 | .spanStart => 15
  | .spanEnd => 16 | .bedTolerance => 17 | .traverseFastDuty => 18 | .traverseSlowDuty => 19 | .hoistDuty => 20
  | .traverseCountsPerMetre => 21 | .hoistCountsPerMetre => 22 | .homeOffset => 23 | .slowZone => 24
  | .surfaceSearchLimit => 25 | .jamTimeout => 26 | .homeLevel => 27 | .topLevel => 28 | .surfaceLevel => 29
  | .bottomLevel => 30 | .snagLevel => 31 | .dwell => 32 | .minimumDepth => 33 | .surfaceCoefficient => 34
  | .unsteadyLimit => 35

/-- All settings in identifier order (R181). -/
def Setting.all : List Setting :=
  [.stageFloor, .stageCeiling, .minimumPulses, .agreementBand, .votePersistence, .stuckLimit, .holdLimit,
   .steadyLimit, .quietCadence, .floodCadence, .shiftLimit, .rampInterval,
   .rampStep, .shiftHalfWidth, .spanStart, .spanEnd, .bedTolerance, .traverseFastDuty, .traverseSlowDuty,
   .hoistDuty, .traverseCountsPerMetre, .hoistCountsPerMetre, .homeOffset, .slowZone,
   .surfaceSearchLimit, .jamTimeout, .homeLevel, .topLevel, .surfaceLevel, .bottomLevel, .snagLevel,
   .dwell, .minimumDepth, .surfaceCoefficient, .unsteadyLimit]

/-- The setting an identifier names, if it is 1 to 35. -/
def Setting.ofId (n : Int) : Option Setting :=
  Setting.all.find? fun x => decide ((x.id : Int) = n)

/-- Lower limit, upper limit and default of each setting (the table before R179; a contact level is its code of
11.3, Low 0 and High 1). -/
def Setting.row : Setting → Int × Int × Int
  | .stageFloor => (-2000, 30000, -2000)
  | .stageCeiling => (-2000, 30000, 30000)
  | .minimumPulses => (1, 1000, 10)
  | .agreementBand => (1, 1000, 30)
  | .votePersistence => (1, 15, 3)
  | .stuckLimit => (2, 255, 12)
  | .holdLimit => (0, 15, 4)
  | .steadyLimit => (1, 10000, 20)
  | .quietCadence => (60, 3600, 900)
  | .floodCadence => (10, 600, 60)
  | .shiftLimit => (0, 1000, 300)
  | .rampInterval => (60, 3600, 300)
  | .rampStep => (1, 100, 5)
  | .shiftHalfWidth => (20, 2500, 250)
  | .spanStart => (-1000, 30000, -1000)
  | .spanEnd => (-1000, 30000, 30000)
  | .bedTolerance => (0, 1000, 50)
  | .traverseFastDuty => (10, 100, 80)
  | .traverseSlowDuty => (10, 100, 30)
  | .hoistDuty => (10, 100, 60)
  | .traverseCountsPerMetre => (10, 10000, 200)
  | .hoistCountsPerMetre => (10, 10000, 500)
  | .homeOffset => (-1000, 30000, 0)
  | .slowZone => (10, 1000, 100)
  | .surfaceSearchLimit => (1000, 30000, 10000)
  | .jamTimeout => (1, 60, 5)
  | .homeLevel => (0, 1, 0)
  | .topLevel => (0, 1, 0)
  | .surfaceLevel => (0, 1, 0)
  | .bottomLevel => (0, 1, 0)
  | .snagLevel => (0, 1, 0)
  | .dwell => (10, 300, 40)
  | .minimumDepth => (0, 2000, 150)
  | .surfaceCoefficient => (500, 1000, 850)
  | .unsteadyLimit => (0, 1000, 50)

/-- R179 check 4: the value lies in the setting's range. -/
def Setting.admits (x : Setting) (v : Int) : Bool :=
  decide (x.row.1 ≤ v) && decide (v ≤ x.row.2.1)

/-- The default a setting takes at Reset (R181). -/
def Setting.default (x : Setting) : Int := x.row.2.2

/-- The values of the 35 settings, in identifier order. -/
abbrev Settings := Vector Int Config.settings

/-- The place of a setting in the store. -/
def Setting.index (x : Setting) : Fin Config.settings := Fin.ofNat _ (x.id - 1)

/-- The present value of a setting. -/
def Settings.read (t : Settings) (x : Setting) : Int := t.get x.index

/-- The store with one setting written. -/
def Settings.write (t : Settings) (x : Setting) (v : Int) : Settings := t.set x.index.val v x.index.isLt

/-- Every setting at its default (R181). -/
def Settings.defaults : Settings :=
  Vector.ofFn fun i => (Setting.all.getD i.val .stageFloor).default

end Sys2Proof.Machine
end

