-- ==== Sys2Proof/Machine/State.lean ====
section
/-! DEFINITION. Everything the spec gives the machine, as plain data, and the state after Reset. -/

namespace Sys2Proof.Machine

/-! ### Level channels (chapter 1) -/

/-- R1: the kind of a channel. -/
inductive ChannelKind where
  | off | encoder | frequency
  deriving DecidableEq, Repr

/-- R1, R14: the mark edge setting of a fitted mark. -/
inductive MarkEdge where
  | rising | falling | both
  deriving DecidableEq, Repr

/-- R1: a fitted mark. -/
structure Mark where
  stage : Int
  edge : MarkEdge
  deriving DecidableEq, Repr

/-- R1: the condition of a channel. -/
inductive Condition where
  | off | settling | valid | silent | outOfRange
  deriving DecidableEq, Repr

/-- R1, R5: the last mark correction. -/
structure MarkCorrection where
  mm : Int
  time : Word
  deriving DecidableEq, Repr

/-- R1, R7: the gate under way, in elapsed seconds, and the pulses counted in it. -/
structure Gate where
  elapsed : Nat
  pulses : Nat
  deriving DecidableEq, Repr

/-- R1: a channel record with the channel's working state. -/
structure Channel where
  kind : ChannelKind
  scale : Int
  offset : Int
  mark : Option Mark
  condition : Condition
  reading : Option Int
  readingTime : Word
  lastMark : Option MarkCorrection
  count : Word
  /-- Absent while the gate is stopped. -/
  gate : Option Gate
  lastGate : Option Nat
  settlingCount : Nat
  /-- Seconds elapsed; absent while the timer is stopped. -/
  settlingTimer : Option Nat
  /-- The level of the mark line, held for 10 ms or more (LOG 6). -/
  markLine : Level
  /-- R4, R19: the level the mark filter starts from or took last; absent before CONFIGURE CHANNEL starts it. -/
  markLevel : Option Level
  deriving DecidableEq, Repr

/-! ### Stage settlement (chapter 2) -/

/-- R21: the cadence. -/
inductive Cadence where
  | quiet | flood
  deriving DecidableEq, Repr

/-- R20: the stage interval that is running. -/
structure StageInterval where
  length : Nat
  cadence : Cadence
  elapsed : Nat
  deriving DecidableEq, Repr

/-- R23: a vote setup; bit n of the check mask is channel n. -/
structure VoteSetup where
  primary : ChannelNumber
  checks : BitVec 4
  deriving DecidableEq, Repr

/-- R23, R26: the standing of a channel. -/
inductive Standing where
  | excluded | candidate | disagreeing | stuck
  deriving DecidableEq, Repr

/-- R26: a stuck watch. -/
structure StuckWatch where
  count : Word
  stage : Option Int
  settlements : Nat
  deriving DecidableEq, Repr

/-- R26: the vote record of a channel. -/
structure VoteRecord where
  standing : Standing
  disagree : Nat
  agree : Nat
  watch : Option StuckWatch
  deriving DecidableEq, Repr

/-- R40: the quality of a stage. -/
inductive Quality where
  | good | failover | held | none
  deriving DecidableEq, Repr

/-- R39: the trend. -/
inductive Trend where
  | steady | rising | falling
  deriving DecidableEq, Repr

/-- R40: the published stage record. -/
structure StageRecord where
  sequence : BitVec 16
  stage : Option Int
  source : Option ChannelNumber
  quality : Quality
  rate : Int
  trend : Trend
  time : Word
  cadence : Cadence
  deriving DecidableEq, Repr

/-- The state of Stage Settlement. -/
structure StageBlock where
  interval : StageInterval
  setup : VoteSetup
  pendingSetup : Option VoteSetup
  votes : Vector VoteRecord Config.channels
  record : StageRecord
  heldCount : Nat
  deriving DecidableEq, Repr

/-! ### Ratings and shift bands (chapters 3 and 4) -/

/-- R42: a rating point. -/
structure Point where
  stage : Int
  discharge : Int
  deriving DecidableEq, Repr

/-- R43: the active rating. -/
structure ActiveRating where
  points : List Point
  number : BitVec 16
  effectiveFrom : Word
  deriving DecidableEq, Repr

/-- R53: the shift option. -/
inductive ShiftOption where
  | keep | clear
  deriving DecidableEq, Repr

/-- The values an adoption in flight carries (the table before R53). -/
structure AdoptionRequest where
  number : BitVec 16
  effectiveFrom : Word
  option : ShiftOption
  deriving DecidableEq, Repr

/-- The last outcome of an adoption (the table before R53). -/
inductive AdoptionOutcome where
  | absent
  | adopted (number : BitVec 16)
  | rejectedOrder (index : Nat)
  | rejectedTooFew
  | rejectedDraftChanged
  deriving DecidableEq, Repr

/-- The adoption record: InFlight exactly while it holds a request. -/
structure Adoption where
  request : Option AdoptionRequest
  lastOutcome : AdoptionOutcome
  deriving DecidableEq, Repr

/-- R64: the state of a band in use. -/
inductive BandState where
  | ramping | applied | retiring
  deriving DecidableEq, Repr

/-- R64: the origin of a band. -/
inductive BandOrigin where
  | manual
  | gauging (runId : BitVec 16)
  deriving DecidableEq, Repr

/-- R64: a band in use. An Empty slot holds no band. -/
structure Band where
  state : BandState
  lower : Int
  upper : Int
  target : Int
  applied : Int
  origin : BandOrigin
  changed : Word
  deriving DecidableEq, Repr

/-- R71: the ramp interval that is running. -/
structure RampTimer where
  length : Nat
  elapsed : Nat
  deriving DecidableEq, Repr

/-- The eight slots of the shift table (R64). -/
abbrev ShiftTable := Vector (Option Band) Config.shiftBands

/-- The state of the Rating Store. -/
structure RatingStore where
  draft : List Point
  active : ActiveRating
  adoption : Adoption
  bands : ShiftTable
  ramp : RampTimer
  deriving DecidableEq, Repr

/-! ### Section table (chapter 5) -/

/-- R79: the measure plan. -/
inductive MeasurePlan where
  | single | twoPoint | threePoint | surfaceOnly
  deriving DecidableEq, Repr

/-- R79: the skip flag. -/
inductive SkipFlag where
  | measure | skip
  deriving DecidableEq, Repr

/-- R79: where the bed elevation came from. -/
inductive BedSource where
  | survey | sounded
  deriving DecidableEq, Repr

/-- R79: a vertical. -/
structure Vertical where
  distance : Int
  bed : Int
  plan : MeasurePlan
  skip : SkipFlag
  source : BedSource
  soundedTime : Option Word
  deriving DecidableEq, Repr

/-! ### Cableway (chapter 6) -/

/-- 6.4: the carriage state. -/
inductive CarriageState where
  | unhomed | homing | parked | traversing | lowering | holding | raising | halted
  deriving DecidableEq, Repr

/-- 6.1: the traverse direction; Outward is the high level of the direction line. -/
inductive TraverseWay where
  | outward | inward
  deriving DecidableEq, Repr

/-- 6.1: the hoist direction; Down is the high level of the direction line. -/
inductive HoistWay where
  | down | up
  deriving DecidableEq, Repr

/-- R93, R94, R107: a motor drive. -/
structure Drive (δ : Type) where
  on : Bool
  /-- The level of the direction line. -/
  way : δ
  /-- The duty in force, percent (LOG 2). -/
  duty : Int
  /-- Commanded on, waiting for the next period boundary. -/
  start : Option δ
  /-- Seconds the jam timer has counted; 0 while the drive is off. -/
  jam : Nat
  deriving DecidableEq, Repr

/-- R99: a movement in progress. -/
inductive Movement where
  | traverseTo (target : Int) (way : TraverseWay)
  | goHome
  | lowerTo (target : Int) (stopAtBottom : Bool) (startCount : Word) (wet : Bool)
  | raiseTo (target : Int)
  | raiseToTop
  deriving DecidableEq, Repr

/-- R105: the phases of homing. -/
inductive HomingPhase where
  | raise | release | find
  deriving DecidableEq, Repr

/-- What the cableway is doing. -/
inductive Activity where
  | idle
  | moving (m : Movement)
  | homing (p : HomingPhase)
  deriving DecidableEq, Repr

/-- R98: the kind of a fault, with the drive a jam names. -/
inductive FaultKind where
  | jam (drive : DriveName)
  | snag
  deriving DecidableEq, Repr

/-- R98: the last fault. -/
structure FaultRecord where
  kind : FaultKind
  state : CarriageState
  position : Option Int
  depth : Int
  time : Word
  deriving DecidableEq, Repr

/-- The state of the Cableway Controller. -/
structure Cableway where
  state : CarriageState
  /-- Whether the position was known when the carriage came to Halted (R95). -/
  haltedKnown : Bool
  traverseCount : Word
  depthCount : Word
  /-- The taken levels (R97). -/
  contacts : ContactLevels
  traverse : Drive TraverseWay
  hoist : Drive HoistWay
  activity : Activity
  /-- In carry recovery (R104). -/
  recovering : Bool
  /-- Within the slow zone by the last test (R94). -/
  slow : Bool
  lastFault : Option FaultRecord
  deriving DecidableEq, Repr

/-! ### Gauging runs (chapter 7) -/

/-- R117: the state of the run. -/
inductive RunState where
  | none | armed | running | returning | complete | aborted | accepted | expired
  deriving DecidableEq, Repr

/-- R118: the step of a Running or Returning run. -/
inductive Step where
  | traverse | sound | surfaceLower | place | dwell | stow | returnRaise | returnHome
  deriving DecidableEq, Repr

/-- R117: the start condition. -/
inductive StartCondition where
  | immediate
  | atStage (trigger : Int) (waitLimit : Nat)
  deriving DecidableEq, Repr

/-- R117: the end reason. -/
inductive EndReason where
  | complete | cancelled | inhibited | expired | jam | snag | stageLost | restarted
  deriving DecidableEq, Repr

/-- R117: the run's Fault field. -/
inductive RunFault where
  | jam | snag
  deriving DecidableEq, Repr

/-- R117: the quality flags of a run. -/
structure RunFlags where
  unsteady : Bool
  surfaceUsed : Bool
  bedChanged : Bool
  deriving DecidableEq, Repr

/-- R119: a result entry. An absent point list is the empty list. -/
structure Entry where
  index : Nat
  distance : Int
  arrivalStage : Option Int
  depthUsed : Option Int
  soundedDepth : Option Int
  points : List Int
  mean : Option Int
  discharge : Option Int
  dry : Bool
  surfaceOnly : Bool
  noBottom : Bool
  bedUpdated : Bool
  skipped : Bool
  deriving DecidableEq, Repr

/-- R59: the flag of a forward lookup. -/
inductive LookupFlag where
  | inRating | belowRating | aboveRating | noRating
  deriving DecidableEq, Repr

/-- R117, R131, R139: the totals of a run. -/
structure Totals where
  measured : Int
  rated : Option Int
  flag : LookupFlag
  ratio : Option Int
  proposed : Option Int
  deriving DecidableEq, Repr

/-- R117: the run record. -/
structure RunRecord where
  id : Option (BitVec 16)
  state : RunState
  step : Option Step
  current : Option Nat
  startCondition : Option StartCondition
  triggerMet : Option Bool
  waitRemaining : Option Nat
  startTime : Option Word
  startStage : Option Int
  endTime : Option Word
  endStage : Option Int
  endReason : Option EndReason
  fault : Option RunFault
  flags : RunFlags
  results : List Entry
  totals : Option Totals
  deriving DecidableEq, Repr

/-- R114: the current-meter settings. -/
structure MeterSettings where
  pulsesPerRevolution : Int
  offset : Int
  slope : Int
  minimumRevolutions : Int
  deriving DecidableEq, Repr

/-- R115, R127: the dwell that is running, for a point of the plan or for the one surface point (R126). -/
structure Dwell where
  length : Nat
  elapsed : Nat
  pulses : Nat
  surface : Bool
  deriving DecidableEq, Repr

/-- The state of the Gauging Unit. -/
structure GaugingUnit where
  run : RunRecord
  nextId : BitVec 16
  visit : List Nat
  meter : MeterSettings
  dwell : Option Dwell
  /-- R124: the arrival depth of the current vertical. -/
  arrivalDepth : Int
  deriving DecidableEq, Repr

/-! ### Warnings (chapters 8 and 9) -/

/-- R140: the state of a rule in a slot that is not Empty. -/
inductive RuleState where
  | disarmed | armed | tripped | acknowledged | latched
  deriving DecidableEq, Repr

/-- R140: what a rule watches. -/
inductive Quantity where
  | stage | rate | discharge
  deriving DecidableEq, Repr

/-- R140, R160: a siren pattern, or none. -/
inductive Siren where
  | none | p1 | p2 | p3
  deriving DecidableEq, Repr

/-- R140, R142: the effect flags of a rule. -/
structure EffectFlags where
  floodCadence : Bool
  cableInhibit : Bool
  surfaceOnly : Bool
  remoteLine : Bool
  deriving DecidableEq, Repr

/-- R140: a rule. An Empty slot holds no rule. -/
structure Rule where
  state : RuleState
  quantity : Quantity
  trip : Int
  clear : Int
  tripPersistence : Nat
  clearPersistence : Nat
  tripCount : Nat
  clearCount : Nat
  level : Nat
  acknowledgeRequired : Bool
  siren : Siren
  flags : EffectFlags
  tripTime : Option Word
  peak : Option Int
  clearTime : Option Word
  deriving DecidableEq, Repr

/-- R158: the contributors of each of the seven items, as slots in ascending order. -/
structure EffectSet where
  pattern1 : List Nat
  pattern2 : List Nat
  pattern3 : List Nat
  floodCadence : List Nat
  cableInhibit : List Nat
  surfaceOnly : List Nat
  remoteLine : List Nat
  deriving DecidableEq, Repr

/-- R161: the phase of the pattern generator; Off while it is stopped. -/
inductive Phase where
  | off | on
  deriving DecidableEq, Repr

/-- The sixteen rule slots (R140). -/
abbrev RuleTable := Vector (Option Rule) Config.rules

/-- The state of the Warning Unit. -/
structure WarningUnit where
  rules : RuleTable
  effects : EffectSet
  level : Nat
  winning : Siren
  phase : Phase
  /-- Whole seconds elapsed in the phase (LOG 5). -/
  phaseElapsed : Nat
  beacon : Bool
  remote : Bool
  deriving DecidableEq, Repr

/-! ### Station port (chapter 10) -/

/-- R173: the status of an answer in the slot. -/
inductive Status where
  | done | accepted | refused
  deriving DecidableEq, Repr

/-- R173: an answer. -/
structure Answer where
  status : Status
  code : Byte
  body : List Byte
  deriving DecidableEq, Repr

/-- R44: the tables of the cursor. -/
inductive Table where
  | draft | active | verticals
  deriving DecidableEq, Repr

/-- R44: the table cursor. The field counter is the length of the partial entry. -/
structure Cursor where
  table : Table
  index : Nat
  fields : List Word
  deriving DecidableEq, Repr

/-- R170, R174: what data out did in the latest select period: high impedance throughout, or high impedance through the
address byte and then driven with bytes. -/
inductive DataOut where
  | highImpedance
  | driven (bytes : List Byte)
  deriving DecidableEq, Repr

/-- The state of the Station Port. -/
structure Port where
  unitAddress : BitVec 3
  cablewayFitted : Level
  slot : Option Answer
  /-- R175, bit numbers of 11.3. -/
  attention : BitVec 12
  mask : BitVec 12
  cursor : Cursor
  /-- What data out did in the latest select period (LOG 18). -/
  sdo : DataOut
  /-- R184: a select period was under way when Reset ended, and is ignored up to its end. -/
  ignoring : Bool
  deriving DecidableEq, Repr

/-- The whole machine, and the commands that wait for it, first in, first out. -/
structure State where
  port : Port
  clock : Word
  settings : Settings
  channels : Vector Channel Config.channels
  stage : StageBlock
  rating : RatingStore
  verticals : List Vertical
  cable : Cableway
  gauging : GaugingUnit
  warning : WarningUnit
  /-- R190: the reset pin is held low. -/
  resetHeld : Bool
  /-- How many free values have been read (LOG 9). -/
  freeReads : Nat
  pending : List Instr
  deriving DecidableEq, Repr

/-- What stops the machine: nothing. The spec gives every command an effect in every state, and a jam or snag is a
recorded state of the cableway (R109), not a stop. Safe and unsafe do not arise. -/
inductive Fault where
  deriving DecidableEq, Repr

/-- Why a command is refused by the model. -/
inductive Refusal where
  /-- Raised by an arm of exec whose command has no meaning yet (none); safe. -/
  | notModelled (mnemonic : String)
  deriving DecidableEq, Repr

/-! ### Reset -/

/-- LOG 1: the straps, contact levels and mark line levels of `State.reset`, with no select period under way. -/
def ResetPins.atReset : ResetPins :=
  { unitAddress := 0, cablewayFitted := .high,
    contacts := { home := .high, top := .high, surface := .high, bottom := .high, snag := .high },
    marks := Vector.replicate _ .low, select := .high }

/-- R19, R190: a channel after Reset, whose mark line is at a level and whose mark filter has not started. -/
def Channel.reset (mark : Level) : Channel :=
  { kind := .off, scale := 1000, offset := 0, mark := none, condition := .off, reading := none, readingTime := 0,
    lastMark := none, count := 0, gate := none, lastGate := none, settlingCount := 0, settlingTimer := none,
    markLine := mark, markLevel := none }

/-- R41: Stage Settlement after Reset. -/
def StageBlock.reset : StageBlock :=
  { interval := { length := 900, cadence := .quiet, elapsed := 0 },
    setup := { primary := 0, checks := 0 }, pendingSetup := none,
    votes := #v[{ standing := .candidate, disagree := 0, agree := 0, watch := none },
                { standing := .excluded, disagree := 0, agree := 0, watch := none },
                { standing := .excluded, disagree := 0, agree := 0, watch := none },
                { standing := .excluded, disagree := 0, agree := 0, watch := none }],
    record := { sequence := 0, stage := none, source := none, quality := .none, rate := 0, trend := .steady,
                time := 0, cadence := .quiet },
    heldCount := 0 }

/-- R57, R78: the Rating Store after Reset. -/
def RatingStore.reset : RatingStore :=
  { draft := [], active := { points := [], number := 0, effectiveFrom := 0 },
    adoption := { request := none, lastOutcome := .absent },
    bands := Vector.replicate _ none, ramp := { length := 300, elapsed := 0 } }

/-- R113: the Cableway Controller after Reset, with the given contact levels. -/
def Cableway.reset (contacts : ContactLevels) : Cableway :=
  { state := .unhomed, haltedKnown := false, traverseCount := 0, depthCount := 0, contacts := contacts,
    traverse := { on := false, way := .inward, duty := 0, start := none, jam := 0 },
    hoist := { on := false, way := .up, duty := 0, start := none, jam := 0 },
    activity := .idle, recovering := false, slow := false, lastFault := none }

/-- R136: a run record in state None. -/
def RunRecord.none : RunRecord :=
  { id := Option.none, state := .none, step := Option.none, current := Option.none,
    startCondition := Option.none, triggerMet := Option.none, waitRemaining := Option.none,
    startTime := Option.none, startStage := Option.none, endTime := Option.none, endStage := Option.none,
    endReason := Option.none, fault := Option.none,
    flags := { unsteady := false, surfaceUsed := false, bedChanged := false }, results := [],
    totals := Option.none }

/-- R114, R136: the Gauging Unit after Reset. -/
def GaugingUnit.reset : GaugingUnit :=
  { run := RunRecord.none, nextId := 1, visit := [],
    meter := { pulsesPerRevolution := 1, offset := 15, slope := 680, minimumRevolutions := 3 },
    dwell := none, arrivalDepth := 0 }

/-- R158: an effect set that holds no item. -/
def EffectSet.empty : EffectSet :=
  { pattern1 := [], pattern2 := [], pattern3 := [], floodCadence := [], cableInhibit := [], surfaceOnly := [],
    remoteLine := [] }

/-- R157, R169: the Warning Unit after Reset. The generator is stopped, and the time in its phase is 0 (LOG 23). -/
def WarningUnit.reset : WarningUnit :=
  { rules := Vector.replicate _ none, effects := EffectSet.empty, level := 0, winning := .none, phase := .off,
    phaseElapsed := 0, beacon := false, remote := false }

/-- R184: the Station Port after Reset, with the sampled straps. Started is bit 0 and AnswerReady bit 1, which the
mask does not hold. A select period under way when Reset ends is to be ignored. -/
def Port.reset (pins : ResetPins) : Port :=
  { unitAddress := pins.unitAddress, cablewayFitted := pins.cablewayFitted, slot := none,
    attention := 0x001, mask := 0xFFD, cursor := { table := .draft, index := 0, fields := [] },
    sdo := .highImpedance, ignoring := decide (pins.select = .low) }

/-- Every record at its Reset value (R19, R41, R57, R78, R92, R113, R136, R157, R169, R181, R184), with the straps,
contact levels and mark line levels found at the pins. -/
def State.powerUp (pins : ResetPins) : State :=
  { port := Port.reset pins, clock := 0, settings := Settings.defaults,
    channels := Vector.ofFn fun i => Channel.reset (pins.marks.get i), stage := StageBlock.reset,
    rating := RatingStore.reset, verticals := [], cable := Cableway.reset pins.contacts,
    gauging := GaugingUnit.reset, warning := WarningUnit.reset, resetHeld := false, freeReads := 0, pending := [] }

/-- The machine right after Reset (R190), with the pins of LOG 1. -/
def State.reset : State := State.powerUp ResetPins.atReset

end Sys2Proof.Machine
end

