-- ==== Sys2Proof/Machine/Ops.lean ====
section
/-! DEFINITION. The arithmetic of the rules, the updates of State's parts, and the choice among allowed orders. -/

namespace Sys2Proof.Machine

/-! ### Arithmetic -/

/-- The quotient rounded to the nearest whole number, halves toward the greater value (R3, R60, R115; d > 0). -/
def roundHalfUp (n d : Int) : Int := (2 * n + d) / (2 * d)

/-- A value held within two limits. -/
def clampTo (lo hi v : Int) : Int := max lo (min v hi)

/-- The test of a range, both limits included. -/
def within (lo hi v : Int) : Bool := decide (lo ≤ v) && decide (v ≤ hi)

/-- A count one up, staying at its greatest value (R26). -/
def countUp (most n : Nat) : Nat := min most (n + 1)

/-- The greatest of a list of numbers, at least the first argument. -/
def greatest (least : Int) : List Int → Int
  | [] => least
  | v :: vs => max v (greatest least vs)

/-- The least of a list of numbers, at most the first argument. -/
def least (most : Int) : List Int → Int
  | [] => most
  | v :: vs => min v (least most vs)

/-- A list with its last element changed. -/
def updateLast {α : Type} (f : α → α) : List α → List α
  | [] => []
  | [e] => [f e]
  | e :: e' :: es => e :: updateLast f (e' :: es)

/-- R2, R95, R96: the step of a quadrature change: up when line A leads, down when line B leads, none when both
lines changed together. -/
def quadratureStep (e : QuadratureEdge) : Int :=
  match e.changed with
  | .lineA => if e.a = e.b then -1 else 1
  | .lineB => if e.a = e.b then 1 else -1
  | .both => 0

/-- R2: a count moved by a step, wrapping at 32 bits. -/
def stepCount (count : Word) (step : Int) : Word := count + BitVec.ofInt 32 step

/-! ### Updates of State's parts -/

/-- The state with another port. -/
def State.setPort (s : State) (x : Port) : State := { s with port := x }
/-- The state with another seconds count. -/
def State.setClock (s : State) (x : Word) : State := { s with clock := x }
/-- The state with other settings. -/
def State.setSettings (s : State) (x : Settings) : State := { s with settings := x }
/-- The state with other channels. -/
def State.setChannels (s : State) (x : Vector Channel Config.channels) : State := { s with channels := x }
/-- The state with another stage block. -/
def State.setStage (s : State) (x : StageBlock) : State := { s with stage := x }
/-- The state with another rating store. -/
def State.setRating (s : State) (x : RatingStore) : State := { s with rating := x }
/-- The state with other verticals. -/
def State.setVerticals (s : State) (x : List Vertical) : State := { s with verticals := x }
/-- The state with another cableway. -/
def State.setCable (s : State) (x : Cableway) : State := { s with cable := x }
/-- The state with another gauging unit. -/
def State.setGauging (s : State) (x : GaugingUnit) : State := { s with gauging := x }
/-- The state with another warning unit. -/
def State.setWarning (s : State) (x : WarningUnit) : State := { s with warning := x }
/-- The state with another count of free values read. -/
def State.setFreeReads (s : State) (x : Nat) : State := { s with freeReads := x }

/-- R170: the state after a select period in which data out stayed at high impedance. -/
def State.undriven (s : State) : State := s.setPort { s.port with sdo := .highImpedance }

/-- R184: the select period that was under way when Reset ended ends: nothing was taken from it. -/
def State.periodIgnored (s : State) : State :=
  s.setPort { s.port with sdo := .highImpedance, ignoring := false }

/-- The present value of a setting. -/
def State.setting (s : State) (x : Setting) : Int := s.settings.read x

/-- The run record changed, the rest of the Gauging Unit kept. -/
def State.setRun (s : State) (r : RunRecord) : State := s.setGauging { s.gauging with run := r }

/-! ### The reset pin -/

/-- R190: while the reset pin is held low the part takes nothing from any input line, and its clock, timers and drive
periods wait for the end of Reset; else a command has its effect. -/
def unlessHeld (act : State → State) (s : State) : Host.Outcome State Fault Refusal :=
  .next (if s.resetHeld then s else act s)

/-- R184, R190: a select period ends. It is not taken while the reset pin is held low; it is ignored whole when it was
under way as Reset ended (LOG 17); else it has its effect. -/
def onSelectPeriod (act : State → State) (s : State) : Host.Outcome State Fault Refusal :=
  unlessHeld (fun s => if s.port.ignoring then s.periodIgnored else act s) s

/-! ### Allowed orders -/

/-- One of the outcomes that the allowed orders of one instant give. Where they all agree it is that outcome; where
they differ the free value chooses (LOG 9, LOG 10). -/
def chooseOutcome (n : Nat) (first : State) (others : List State) : State :=
  if others.all fun t => decide (t = first) then first
  else (first :: others).getD (Config.order n % (others.length + 1)) first

end Sys2Proof.Machine
end

