-- ==== Sys2Proof/Machine/Flags.lean ====
section
/-! DEFINITION. The attention set, its mask and the attention line (R175). -/

namespace Sys2Proof.Machine

/-- The twelve attention reasons (R175), in the order of their bits (11.3). -/
inductive Reason where
  | started | answerReady | overrun | channelChanged | stageLost | ratingAdopted | ratingRejected
  | ruleTripped | ruleCleared | runStarted | runEnded | carriageFault
  deriving DecidableEq, Repr

/-- 11.3: the bit of a reason in the attention set and the mask. -/
def Reason.bit : Reason → Nat
  | .started => 0 | .answerReady => 1 | .overrun => 2 | .channelChanged => 3 | .stageLost => 4
  | .ratingAdopted => 5 | .ratingRejected => 6 | .ruleTripped => 7 | .ruleCleared => 8 | .runStarted => 9
  | .runEnded => 10 | .carriageFault => 11

/-- Whether a set of reasons holds a reason. -/
def holdsReason (set : BitVec 12) (r : Reason) : Bool := set.getLsbD r.bit

/-- A set of reasons with one put in. -/
def addReason (set : BitVec 12) (r : Reason) : BitVec 12 := set ||| BitVec.twoPow 12 r.bit

/-- A set of reasons with one taken out. -/
def removeReason (set : BitVec 12) (r : Reason) : BitVec 12 := set &&& ~~~ BitVec.twoPow 12 r.bit

/-- Whether the attention set holds a reason. -/
def State.attends (s : State) (r : Reason) : Bool := holdsReason s.port.attention r

/-- R175: raising a reason puts it in the set; a reason already present stays present. -/
def State.raise (s : State) (r : Reason) : State :=
  s.setPort { s.port with attention := addReason s.port.attention r }

/-- A reason raised when a condition holds. -/
def State.raiseIf (s : State) (b : Bool) (r : Reason) : State := if b then s.raise r else s

/-- R174: a reason cleared. -/
def State.dropReason (s : State) (r : Reason) : State :=
  s.setPort { s.port with attention := removeReason s.port.attention r }

/-- R175, R190: ATTN is driven low while the set holds AnswerReady or a reason the mask enables, and is released while
the reset pin is held low. -/
def State.attnLow (s : State) : Bool :=
  !s.resetHeld && (s.attends .answerReady || (s.port.attention &&& s.port.mask) != 0)

end Sys2Proof.Machine
end

