-- ==== Sys2Proof/Machine/Operands.lean ====
section
/-! DEFINITION. Request codes (R185), reading parameters (R186), the codes of 11.3, composing bytes (R187), and the
taking of a request into the answer slot (R171 to R173). -/

namespace Sys2Proof.Machine

/-! ### Requests -/

/-- The requests of the table of request codes (R185). -/
inductive RequestName where
  | identify | readAttention | setAttentionMask | setClock | readClock | writeSettings | readSettings
  | readStation | restart | configureChannel | setChannelStage | readChannel | setVote | setCursor | writeFields
  | readEntries | retirePoint | copyRating | adoptRating | lookup | defineShift | retireShift | readShifts
  | retireVertical | homeCarriage | clearFault | setMeter | startRun | abortRun | readRun | acceptGauging
  | defineRule | armRule | disarmRule | acknowledge | retireRule | readRule
  deriving DecidableEq, Repr

/-- R185: the code of a request. -/
def RequestName.code : RequestName → Byte
  | .identify => 0x01 | .readAttention => 0x02 | .setAttentionMask => 0x03 | .setClock => 0x04
  | .readClock => 0x05 | .writeSettings => 0x06 | .readSettings => 0x07 | .readStation => 0x08
  | .restart => 0x09 | .configureChannel => 0x10 | .setChannelStage => 0x11 | .readChannel => 0x12
  | .setVote => 0x18 | .setCursor => 0x20 | .writeFields => 0x21 | .readEntries => 0x22
  | .retirePoint => 0x23 | .copyRating => 0x24 | .adoptRating => 0x25 | .lookup => 0x26
  | .defineShift => 0x28 | .retireShift => 0x29 | .readShifts => 0x2A | .retireVertical => 0x30
  | .homeCarriage => 0x38 | .clearFault => 0x39 | .setMeter => 0x3A | .startRun => 0x3B | .abortRun => 0x3C
  | .readRun => 0x3D | .acceptGauging => 0x3E | .defineRule => 0x40 | .armRule => 0x41 | .disarmRule => 0x42
  | .acknowledge => 0x43 | .retireRule => 0x44 | .readRule => 0x45

/-- All requests. -/
def RequestName.all : List RequestName :=
  [.identify, .readAttention, .setAttentionMask, .setClock, .readClock, .writeSettings, .readSettings,
   .readStation, .restart, .configureChannel, .setChannelStage, .readChannel, .setVote,
   .setCursor, .writeFields, .readEntries, .retirePoint, .copyRating, .adoptRating, .lookup, .defineShift,
   .retireShift, .readShifts, .retireVertical,
   .homeCarriage, .clearFault, .setMeter, .startRun, .abortRun, .readRun, .acceptGauging, .defineRule, .armRule,
   .disarmRule, .acknowledge, .retireRule, .readRule]

/-- The request a code names, if any (R173). -/
def RequestName.ofCode (c : Byte) : Option RequestName := RequestName.all.find? fun r => decide (r.code = c)

/-! ### Refusals and replies -/

/-- The refusal reasons of R173. -/
inductive Reject where
  | frameError | unknownRequest | badField | wrongState | locked | tableFull | notFound | outOfLimits | notFitted
  | readOnly | gap | unsteady | adoptionPending | ruleActive | notActive | noRoom
  deriving DecidableEq, Repr

/-- 11.3: the code of a refusal reason. -/
def Reject.code : Reject → Nat
  | .frameError => 1 | .unknownRequest => 2 | .badField => 3 | .wrongState => 4 | .locked => 5
  | .tableFull => 6 | .notFound => 7 | .outOfLimits => 8 | .notFitted => 9 | .readOnly => 10 | .gap => 11
  | .unsteady => 12 | .adoptionPending => 13 | .ruleActive => 14 | .notActive => 15 | .noRoom => 16

/-- What the owner of a request answers; WRITE FIELDS adds the values taken to a refusal (R47). -/
inductive Reply where
  | done (body : List Byte)
  | accepted (body : List Byte)
  | refused (why : Reject) (detail : Nat)
  | refusedFields (why : Reject) (detail taken : Nat)
  deriving DecidableEq, Repr

/-- What carrying out a request leaves: the state and the reply. -/
structure Taken where
  state : State
  reply : Reply
  deriving DecidableEq, Repr

/-- Carried out. -/
def done (s : State) (body : List Byte) : Taken := { state := s, reply := .done body }
/-- Begun. -/
def accepted (s : State) (body : List Byte) : Taken := { state := s, reply := .accepted body }
/-- Refused with a reason and a detail. -/
def refused (s : State) (why : Reject) (detail : Nat) : Taken := { state := s, reply := .refused why detail }
/-- Refused with BadField at an index. -/
def badField (s : State) (index : Nat) : Taken := refused s .badField index

/-! ### Composing bytes (R187) -/

/-- A value in one byte. -/
def be1 (v : Int) : List Byte := [BitVec.ofInt 8 v]
/-- A value in two bytes. -/
def be2 (v : Int) : List Byte :=
  [(BitVec.ofInt 16 v).extractLsb' 8 8, (BitVec.ofInt 16 v).extractLsb' 0 8]
/-- A word in four bytes. -/
def beWord (w : Word) : List Byte :=
  [w.extractLsb' 24 8, w.extractLsb' 16 8, w.extractLsb' 8 8, w.extractLsb' 0 8]
/-- A value in four bytes. -/
def be4 (v : Int) : List Byte := beWord (BitVec.ofInt 32 v)

/-- An optional value, sent as 0 when absent. -/
def orZero (v : Option Int) : Int := v.getD 0

/-- A presence or flag field: bit n is the n-th of the list. -/
def flagBits : List Bool → Nat
  | [] => 0
  | b :: bs => b.toNat + 2 * flagBits bs

/-- The set of slots a list names, bit n for slot n (the effect report). -/
def slotBits (slots : List Nat) : Nat := flagBits ((List.range 16).map fun n => slots.contains n)

/-! ### Reading parameters (R186) -/

/-- The parameter bytes as 4-byte values; none when the length is not a multiple of 4. -/
def readWords : List Byte → Option (List Word)
  | [] => some []
  | a :: b :: c :: d :: rest => (readWords rest).map (Word.ofBytes a b c d :: ·)
  | _ => none

/-- The parameter bytes of a list of values (the inverse of `readWords`). -/
def paramBytes (ws : List Word) : List Byte := ws.flatMap beWord

/-- A parameter read as a number of one of n slots: the slot, if the value is 0 to n - 1. -/
def slotOf (n : Nat) (w : Word) : Option Nat :=
  if within 0 (n - 1) w.toInt then some w.toInt.toNat else none

/-- A parameter that names a channel. -/
def channelOf (w : Word) : Option ChannelNumber :=
  if h : w.toNat < Config.channels then some ⟨w.toNat, h⟩ else none

/-! ### Codes of 11.3 -/

/-- Channel kind codes. -/
def ChannelKind.code : ChannelKind → Int
  | .off => 0 | .encoder => 1 | .frequency => 2
/-- Channel kind of a code. -/
def ChannelKind.ofCode (w : Word) : Option ChannelKind :=
  if w = 0 then some .off else if w = 1 then some .encoder else if w = 2 then some .frequency else none

/-- Mark edge codes; None is 0. -/
def MarkEdge.code : MarkEdge → Int
  | .rising => 1 | .falling => 2 | .both => 3
/-- Mark edge of a code; the inner none is the edge None, no mark fitted (R14). -/
def MarkEdge.ofCode (w : Word) : Option (Option MarkEdge) :=
  if w = 0 then some none else if w = 1 then some (some .rising) else if w = 2 then some (some .falling)
  else if w = 3 then some (some .both) else none

/-- Channel condition codes. -/
def Condition.code : Condition → Int
  | .off => 0 | .settling => 1 | .valid => 2 | .silent => 3 | .outOfRange => 4
/-- Standing codes. -/
def Standing.code : Standing → Int
  | .excluded => 0 | .candidate => 1 | .disagreeing => 2 | .stuck => 3
/-- Quality codes. -/
def Quality.code : Quality → Int
  | .good => 0 | .failover => 1 | .held => 2 | .none => 3
/-- Trend codes. -/
def Trend.code : Trend → Int
  | .steady => 0 | .rising => 1 | .falling => 2
/-- Cadence codes. -/
def Cadence.code : Cadence → Int
  | .quiet => 0 | .flood => 1

/-- Table codes. -/
def Table.code : Table → Int
  | .draft => 0 | .active => 1 | .verticals => 2
/-- Table of a code. -/
def Table.ofCode (w : Word) : Option Table :=
  if w = 0 then some .draft else if w = 1 then some .active else if w = 2 then some .verticals else none

/-- Measure plan codes. -/
def MeasurePlan.code : MeasurePlan → Int
  | .single => 0 | .twoPoint => 1 | .threePoint => 2 | .surfaceOnly => 3
/-- Measure plan of a code. -/
def MeasurePlan.ofCode (w : Word) : Option MeasurePlan :=
  if w = 0 then some .single else if w = 1 then some .twoPoint else if w = 2 then some .threePoint
  else if w = 3 then some .surfaceOnly else none
/-- Skip flag codes. -/
def SkipFlag.code : SkipFlag → Int
  | .measure => 0 | .skip => 1
/-- Skip flag of a code. -/
def SkipFlag.ofCode (w : Word) : Option SkipFlag :=
  if w = 0 then some .measure else if w = 1 then some .skip else none
/-- Bed source codes. -/
def BedSource.code : BedSource → Int
  | .survey => 0 | .sounded => 1
/-- Shift option of a code. -/
def ShiftOption.ofCode (w : Word) : Option ShiftOption :=
  if w = 0 then some .keep else if w = 1 then some .clear else none
/-- Lookup flag codes. -/
def LookupFlag.code : LookupFlag → Int
  | .inRating => 0 | .belowRating => 1 | .aboveRating => 2 | .noRating => 3
/-- Band state codes of a band in use; Empty is 0. -/
def BandState.code : BandState → Int
  | .ramping => 1 | .applied => 2 | .retiring => 3
/-- Carriage state codes. -/
def CarriageState.code : CarriageState → Int
  | .unhomed => 0 | .homing => 1 | .parked => 2 | .traversing => 3 | .lowering => 4 | .holding => 5
  | .raising => 6 | .halted => 7
/-- Movement codes. -/
def Movement.code : Movement → Int
  | .traverseTo _ _ => 1 | .goHome => 2 | .lowerTo _ _ _ _ => 3 | .raiseTo _ => 4 | .raiseToTop => 5
/-- Run state codes. -/
def RunState.code : RunState → Int
  | .none => 0 | .armed => 1 | .running => 2 | .returning => 3 | .complete => 4 | .aborted => 5
  | .accepted => 6 | .expired => 7
/-- Step codes. -/
def Step.code : Step → Int
  | .traverse => 0 | .sound => 1 | .surfaceLower => 2 | .place => 3 | .dwell => 4 | .stow => 5
  | .returnRaise => 6 | .returnHome => 7
/-- End reason codes. -/
def EndReason.code : EndReason → Int
  | .complete => 0 | .cancelled => 1 | .inhibited => 2 | .expired => 3 | .jam => 4 | .snag => 5
  | .stageLost => 6 | .restarted => 7
/-- Fault field codes. -/
def RunFault.code : RunFault → Int
  | .jam => 4 | .snag => 5
/-- Rule state codes; Empty is 0. -/
def RuleState.code : RuleState → Int
  | .disarmed => 1 | .armed => 2 | .tripped => 3 | .acknowledged => 4 | .latched => 5
/-- Quantity codes. -/
def Quantity.code : Quantity → Int
  | .stage => 0 | .rate => 1 | .discharge => 2
/-- Quantity of a code. -/
def Quantity.ofCode (w : Word) : Option Quantity :=
  if w = 0 then some .stage else if w = 1 then some .rate else if w = 2 then some .discharge else none
/-- Siren pattern codes. -/
def Siren.code : Siren → Int
  | .none => 0 | .p1 => 1 | .p2 => 2 | .p3 => 3
/-- Siren pattern of a code. -/
def Siren.ofCode (w : Word) : Option Siren :=
  if w = 0 then some .none else if w = 1 then some .p1 else if w = 2 then some .p2 else if w = 3 then some .p3
  else Option.none
/-- A No or Yes flag. -/
def flagOf (w : Word) : Option Bool :=
  if w = 0 then some false else if w = 1 then some true else none
/-- The level a contact level setting stands for. -/
def levelOfSetting (v : Int) : Level := if v = 0 then .low else .high

/-! ### Taking a request -/

/-- R185: the answer a reply makes, echoing the request code. -/
def Reply.answer (code : Byte) : Reply → Answer
  | .done body => { status := .done, code := code, body := body }
  | .accepted body => { status := .accepted, code := code, body := body }
  | .refused why detail => { status := .refused, code := code, body := be1 why.code ++ be1 detail }
  | .refusedFields why detail taken =>
    { status := .refused, code := code, body := be1 why.code ++ be1 detail ++ be1 taken }

/-- R170, R173: at the end of a request frame, in which data out stayed at high impedance, an answer enters the slot
and AnswerReady is raised. -/
def State.fillSlot (s : State) (a : Answer) : State :=
  (s.setPort { s.port with slot := some a, sdo := .highImpedance }).raise .answerReady

/-- R171 to R173: a request frame that ends. While the slot is occupied it is discarded whole and Overrun is raised;
a length over 128 is not well formed; otherwise its owner carries it out and the answer enters the slot. -/
def takeRequest (code : Byte) (params : List Byte) (owner : List Byte → State → Taken) (s : State) : State :=
  if s.port.slot.isSome then s.undriven.raise .overrun
  else if 128 < params.length then s.fillSlot ((Reply.refused .frameError 0).answer code)
  else (owner params s).state.fillSlot ((owner params s).reply.answer code)

end Sys2Proof.Machine
end

