-- ==== Sys2Proof/Machine/Cableway.lean ====
section
/-! DEFINITION. The Cableway Controller (chapter 6): drives, counters, contacts, movements, homing, faults and the
inhibit. An operation that may end a movement answers the state and the result handed to the Gauging Unit. -/

namespace Sys2Proof.Machine

/-- R102: the ends of a lowering: Bottom contact, with the depth and whether a wet edge was taken; the target depth
reached; no surface found. -/
inductive LowerEnd where
  | bottomContact (depth : Int) (wet : Bool)
  | reached
  | noSurface
  deriving DecidableEq, Repr

/-- R99: the results a movement ends with. Those of a LowerTo hand back its choice of stop at Bottom (R102). -/
inductive MoveResult where
  | arrived
  | home
  | reached
  | lowered (how : LowerEnd) (stopAtBottom : Bool)
  | atTop
  | stopped
  | inhibited
  | faulted
  | restarted
  | refused
  deriving DecidableEq, Repr

/-- R99: the movements the Gauging Unit asks for, but Stop. -/
inductive MoveRequest where
  | traverseTo (target : Int)
  | goHome
  | lowerTo (target : Int) (stopAtBottom : Bool)
  | raiseTo (target : Int)
  | raiseToTop
  deriving DecidableEq, Repr

/-- A state and the result of a movement that ended in it, if one did. -/
structure Moved where
  state : State
  result : Option MoveResult

/-- Nothing ended. -/
def going (s : State) : Moved := { state := s, result := none }

/-! ### Readings -/

/-- R158: whether the effect set holds CableInhibit. -/
def State.inhibited (s : State) : Bool := !s.warning.effects.cableInhibit.isEmpty

/-- R112: the sampled cableway-fitted strap. -/
def State.fitted (s : State) : Bool := s.port.cablewayFitted == .high

/-- The level of a contact in a set of levels. -/
def levelAt (l : ContactLevels) : Contact → Level
  | .home => l.home
  | .top => l.top
  | .surface => l.surface
  | .bottom => l.bottom
  | .snag => l.snag

/-- A set of levels with one contact's level changed. -/
def withLevel (l : ContactLevels) (c : Contact) (v : Level) : ContactLevels :=
  match c with
  | .home => { l with home := v }
  | .top => { l with top := v }
  | .surface => { l with surface := v }
  | .bottom => { l with bottom := v }
  | .snag => { l with snag := v }

/-- The setting that gives a contact's active level. -/
def levelSetting : Contact → Setting
  | .home => .homeLevel
  | .top => .topLevel
  | .surface => .surfaceLevel
  | .bottom => .bottomLevel
  | .snag => .snagLevel

/-- R97: a contact is asserted while its taken level equals its active level. -/
def State.asserted (s : State) (c : Contact) : Bool :=
  levelAt s.cable.contacts c == levelOfSetting (s.setting (levelSetting c))

/-- R95: the position the traverse count gives, cm. -/
def State.position (s : State) : Int :=
  clampTo Config.distanceMin Config.distanceMax
    (s.setting .homeOffset + roundHalfUp (s.cable.traverseCount.toInt * 100) (s.setting .traverseCountsPerMetre))

/-- R95: whether the position is known. -/
def Cableway.positionKnown (c : Cableway) : Bool :=
  match c.state with
  | .unhomed | .homing => false
  | .halted => c.haltedKnown
  | .parked | .traversing | .lowering | .holding | .raising => true

/-- R95, R98: the position, or absent when it is not known. -/
def State.knownPosition (s : State) : Option Int := if s.cable.positionKnown then some s.position else none

/-- R96: the weight's depth, mm. -/
def State.depth (s : State) : Int :=
  clampTo (-Config.depthMax) Config.depthMax
    (roundHalfUp (s.cable.depthCount.toInt * 1000) (s.setting .hoistCountsPerMetre))

/-! ### Drives -/

/-- R93: a drive turned off at once; its direction line and duty keep what they had. -/
def Drive.off {δ : Type} (d : Drive δ) : Drive δ := { d with on := false, start := none, jam := 0 }

/-- R93: a drive turned off and commanded on in a direction, to start at the next boundary. -/
def Drive.command {δ : Type} (d : Drive δ) (way : δ) : Drive δ := { d.off with start := some way }

/-- R93: a commanded drive starts. -/
def Drive.begin {δ : Type} (way : δ) (duty : Int) (d : Drive δ) : Drive δ :=
  { d with on := true, way := way, duty := duty, start := none, jam := 0 }

/-- R107: a jam timer started again at a change of its drive's counter. -/
def Drive.turned {δ : Type} (d : Drive δ) : Drive δ := { d with jam := 0 }

/-- Both drives off. -/
def Cableway.stopped (c : Cableway) : Cableway := { c with traverse := c.traverse.off, hoist := c.hoist.off }

/-- Only the traverse commanded. -/
def Cableway.runTraverse (c : Cableway) (way : TraverseWay) : Cableway :=
  { c with traverse := c.traverse.command way, hoist := c.hoist.off }

/-- Only the hoist commanded. -/
def Cableway.runHoist (c : Cableway) (way : HoistWay) : Cableway :=
  { c with traverse := c.traverse.off, hoist := c.hoist.command way }

/-- Whether the hoist runs Up or waits to. -/
def Cableway.hoistingUp (c : Cableway) : Bool :=
  (c.hoist.on && c.hoist.way == .up) || c.hoist.start == some .up

/-- The end of a movement or homing: drives off, nothing in progress, the carriage in a state. -/
def State.rest (s : State) (carriage : CarriageState) : State :=
  s.setCable { s.cable.stopped with state := carriage, activity := .idle, recovering := false }

/-- A movement ended with a result and the carriage in a state. -/
def endMovement (s : State) (carriage : CarriageState) (r : MoveResult) : Moved :=
  { state := s.rest carriage, result := some r }

/-- R104: the traverse asked to run; with Top released the hoist draws the weight up first (carry recovery). -/
def travel (way : TraverseWay) (s : State) : State :=
  if s.asserted .top then s.setCable { s.cable.runTraverse way with recovering := false }
  else if s.cable.recovering && s.cable.hoistingUp then s.setCable { s.cable with traverse := s.cable.traverse.off }
  else s.setCable { s.cable.runHoist .up with recovering := true }

/-! ### The slow zone and the arrival -/

/-- The target of the traverse in progress: the home offset for GoHome (R101). -/
def State.traverseTarget (s : State) : Option Int :=
  match s.cable.activity with
  | .moving (.traverseTo target _) => some target
  | .moving .goHome => some (s.setting .homeOffset)
  | _ => none

/-- R94: whether the position is within the slow zone of a target. -/
def State.nearTarget (s : State) (target : Int) : Bool :=
  decide ((s.position - target).natAbs ≤ (s.setting .slowZone).toNat)

/-- R94: the slow zone test made again. -/
def testSlowZone (s : State) : State :=
  match s.traverseTarget with
  | some target => s.setCable { s.cable with slow := s.nearTarget target }
  | none => s

/-- R100: whether the position is within the arrival window of a target or past it, in a direction of travel. -/
def State.arrivedAt (s : State) (target : Int) : TraverseWay → Bool
  | .outward => decide (target - Config.arrivalWindow ≤ s.position)
  | .inward => decide (s.position ≤ target + Config.arrivalWindow)

/-- R94, R100: the tests at each change of the traverse count. -/
def traverseTests (s : State) : Moved :=
  match s.cable.activity with
  | .moving (.traverseTo target way) =>
    if s.arrivedAt target way then endMovement s .holding .arrived else going (testSlowZone s)
  | _ => going (testSlowZone s)

/-! ### Ends of lowering and raising -/

/-- R102: the surface search limit in counts. -/
def State.searchCounts (s : State) : Int :=
  Int.tdiv (s.setting .surfaceSearchLimit * s.setting .hoistCountsPerMetre) 1000

/-- R102, R103: the conditions that end a lowering or a raise, tested on the state as it stands. -/
def hoistTests (s : State) : Moved :=
  match s.cable.activity with
  | .moving (.lowerTo target stop startCount wet) =>
    if s.asserted .bottom then endMovement s .holding (.lowered (.bottomContact s.depth wet) stop)
    else if wet then (if target ≤ s.depth then endMovement s .holding (.lowered .reached stop) else going s)
    else if s.searchCounts ≤ (s.cable.depthCount - startCount).toInt then
      endMovement s .holding (.lowered .noSurface stop)
    else going s
  | .moving (.raiseTo target) => if s.depth ≤ target then endMovement s .holding .reached else going s
  | .moving .raiseToTop => if s.asserted .top then endMovement s .holding .atTop else going s
  | _ => going s

/-! ### Taking a movement (R99 to R103) -/

/-- R100: TraverseTo taken in Holding or Parked. -/
def takeTraverseTo (target : Int) (s : State) : Moved :=
  let way : TraverseWay := if s.position < target then .outward else .inward
  if s.inhibited ∧ way = .outward then endMovement s .holding .inhibited
  else if s.arrivedAt target way then endMovement s .holding .arrived
  else
    going (travel way (s.setCable { s.cable with state := .traversing, activity := .moving (.traverseTo target way),
                                                 slow := s.nearTarget target, recovering := false }))

/-- R101: GoHome taken in Holding or Parked. -/
def takeGoHome (s : State) : Moved :=
  if s.asserted .home ∨ s.cable.state = .parked then endMovement s .parked .home
  else
    going (travel .inward (s.setCable { s.cable with state := .traversing, activity := .moving .goHome,
                                                     slow := s.nearTarget (s.setting .homeOffset),
                                                     recovering := false }))

/-- R96, R102, R111: LowerTo taken in Holding. Surface asserted loads the depth counter when the movement is taken, as a
wet edge; CableInhibit then ends it, before Bottom is tested (LOG 24: the model's inference). -/
def takeLowerTo (target : Int) (stopAtBottom : Bool) (s : State) : Moved :=
  let wet := s.asserted .surface
  let count := if wet then 0 else s.cable.depthCount
  if s.inhibited then endMovement (s.setCable { s.cable with depthCount := count }) .holding .inhibited
  else
    hoistTests (s.setCable { s.cable.runHoist .down with
      state := .lowering, depthCount := count, activity := .moving (.lowerTo target stopAtBottom count wet) })

/-- R103: RaiseTo taken in Holding. -/
def takeRaiseTo (target : Int) (s : State) : Moved :=
  hoistTests (s.setCable { s.cable.runHoist .up with state := .raising, activity := .moving (.raiseTo target) })

/-- R103: RaiseToTop taken in Holding. -/
def takeRaiseToTop (s : State) : Moved :=
  hoistTests (s.setCable { s.cable.runHoist .up with state := .raising, activity := .moving .raiseToTop })

/-- R99: a movement is taken in Holding, TraverseTo and GoHome also in Parked, and none while one is in progress. -/
def takeMovement (m : MoveRequest) (s : State) : Moved :=
  if s.cable.activity ≠ .idle then { state := s, result := some .refused }
  else match m, s.cable.state with
    | .traverseTo target, .holding | .traverseTo target, .parked => takeTraverseTo target s
    | .goHome, .holding | .goHome, .parked => takeGoHome s
    | .lowerTo target stop, .holding => takeLowerTo target stop s
    | .raiseTo target, .holding => takeRaiseTo target s
    | .raiseToTop, .holding => takeRaiseToTop s
    | _, _ => { state := s, result := some .refused }

/-- R99: Stop ends the movement in progress; in Holding or Parked it ends nothing and gives Stopped at once. -/
def stopMovement (s : State) : Moved :=
  match s.cable.activity, s.cable.state with
  | .moving _, _ => endMovement s .holding .stopped
  | _, .holding | _, .parked => { state := s, result := some .stopped }
  | _, _ => { state := s, result := some .refused }

/-! ### Homing (R105, R106) -/

/-- R95, R107: the traverse counter loaded with 0, which the jam timer takes as a change. -/
def loadHome (s : State) : State :=
  s.setCable { s.cable with traverseCount := 0, traverse := s.cable.traverse.turned }

/-- A homing phase begun that traverses in a direction. -/
def beginPhase (p : HomingPhase) (way : TraverseWay) (s : State) : State :=
  travel way (s.setCable { s.cable with activity := .homing p })

/-- R105, R106: what follows the end of phase a. -/
def afterRaisePhase (s : State) : State :=
  if s.asserted .home then
    if s.inhibited then (loadHome s).rest .parked else beginPhase .release .outward s
  else beginPhase .find .inward s

/-- R105: homing begins with phase a, which Top asserted ends at once. -/
def beginHoming (s : State) : State :=
  let s' := s.setCable { s.cable with state := .homing, activity := .homing .raise, recovering := false }
  if s.asserted .top then afterRaisePhase s' else s'.setCable (s'.cable.runHoist .up)

/-! ### Faults (R107 to R109) -/

/-- R109: a fault is taken. -/
def takeFault (kind : FaultKind) (s : State) : Moved :=
  { state := (s.setCable { s.cable.stopped with
      state := .halted, haltedKnown := s.cable.positionKnown, activity := .idle, recovering := false,
      lastFault := some { kind := kind, state := s.cable.state, position := s.knownPosition, depth := s.depth,
                          time := s.clock } }).raise .carriageFault,
    result := match s.cable.activity with
      | .moving _ => some .faulted
      | _ => none }

/-- R108: a snag is taken when Snag is asserted and either drive is on. -/
def snagTest (s : State) : Moved :=
  if s.asserted .snag && (s.cable.traverse.on || s.cable.hoist.on) then takeFault .snag s else going s

/-- R107: a jam is taken when the jam timer of a drive that is on has reached the timeout in force. -/
def jamTest (s : State) : Moved :=
  if s.cable.traverse.on && decide (s.setting .jamTimeout ≤ s.cable.traverse.jam) then takeFault (.jam .traverse) s
  else if s.cable.hoist.on && decide (s.setting .jamTimeout ≤ s.cable.hoist.jam) then takeFault (.jam .hoist) s
  else going s

/-- R107: the jam timer of a drive reaches the timeout. A drive that is off makes no jam (R109). -/
def jamExpiry (d : DriveName) (s : State) : Moved :=
  match d with
  | .traverse => if s.cable.traverse.on then takeFault (.jam .traverse) s else going s
  | .hoist => if s.cable.hoist.on then takeFault (.jam .hoist) s else going s

/-! ### Conditions on asserted contacts -/

/-- The direction of the traverse that the activity calls for. -/
def Activity.travelWay : Activity → Option TraverseWay
  | .moving (.traverseTo _ way) => some way
  | .moving .goHome => some .inward
  | .homing .release => some .outward
  | .homing .find => some .inward
  | _ => none

/-- R104: the traverse goes on after a carry recovery; an Outward movement does not start under the inhibit (R111,
LOG 15). -/
def resumeTravel (way : TraverseWay) (s : State) : Moved :=
  if s.inhibited ∧ way = .outward then endMovement s .holding .inhibited else going (travel way s)

/-- R104: the carry law of a traverse in progress: recovery begun when Top is released, ended when it is asserted. -/
def carryTest (s : State) : Moved :=
  match s.cable.activity.travelWay with
  | some way =>
    if s.asserted .top then (if s.cable.recovering then resumeTravel way s else going s)
    else if s.cable.recovering then going s
    else going (travel way s)
  | none => going s

/-- R104: the traverse drive is on only while Top is asserted. -/
def enforceCarry (s : State) : State :=
  if s.asserted .top then s else s.setCable { s.cable with traverse := s.cable.traverse.off }

/-- R102 to R105: the ends of a movement or homing phase that asserted contacts bring, on the state as it stands. -/
def contactEnds (s : State) : Moved :=
  match s.cable.activity with
  | .homing .raise => going (if s.asserted .top then afterRaisePhase s else s)
  | .homing .release => if s.asserted .home then carryTest s else going (beginPhase .find .inward s)
  | .homing .find => carryTest s
  | .moving (.traverseTo _ _) | .moving .goHome => carryTest s
  | .moving _ => hoistTests s
  | .idle => going s

/-- R97, R104: the conditions that the carriage tests on asserted contacts, the carry law first. -/
def contactTests (s : State) : Moved := contactEnds (enforceCarry s)

/-- R95, R101, R105: an active edge of Home: the counter is loaded, a GoHome or phase c ends Parked, and the tests on
the traverse count are made. -/
def homeEdge (s : State) : Moved :=
  match s.cable.activity with
  | .moving .goHome => endMovement (loadHome s) .parked .home
  | .homing .find => going ((loadHome s).rest .parked)
  | _ => traverseTests (loadHome s)

/-- R96, R107: the depth counter loaded at a wet edge. -/
def wetEdge (s : State) : Moved :=
  match s.cable.activity with
  | .moving (.lowerTo target stop start _) =>
    hoistTests (s.setCable { s.cable with depthCount := 0, hoist := s.cable.hoist.turned,
                                          activity := .moving (.lowerTo target stop start true) })
  | _ => going s

/-- R97: a taken change of a contact's level, with the edge it makes. A level the contact already has is no change. -/
def contactChange (c : Contact) (v : Level) (s : State) : Moved :=
  if levelAt s.cable.contacts c = v then going s
  else
    let s' := s.setCable { s.cable with contacts := withLevel s.cable.contacts c v }
    match c with
    | .home => if s'.asserted .home then homeEdge s' else contactTests s'
    | .surface => if s'.asserted .surface ∧ s'.cable.state = .lowering then wetEdge s' else going s'
    | .top => contactTests s'
    | .bottom => contactTests s'
    | .snag => snagTest s'

/-! ### Counters -/

/-- R95: a change of the traverse encoder. Both lines changed together leave the count (R2). -/
def traverseCountChange (e : QuadratureEdge) (s : State) : Moved :=
  if quadratureStep e = 0 then going s
  else
    traverseTests (s.setCable { s.cable with
      traverseCount := stepCount s.cable.traverseCount (quadratureStep e), traverse := s.cable.traverse.turned })

/-- R96: a change of the hoist encoder. -/
def depthCountChange (e : QuadratureEdge) (s : State) : Moved :=
  if quadratureStep e = 0 then going s
  else
    hoistTests (s.setCable { s.cable with
      depthCount := stepCount s.cable.depthCount (quadratureStep e), hoist := s.cable.hoist.turned })

/-! ### The drive period boundary (R93) -/

/-- R94, R105: the duty the traverse runs at. -/
def State.traverseDuty (s : State) : Int :=
  match s.cable.activity with
  | .homing _ => s.setting .traverseSlowDuty
  | _ => if s.cable.slow then s.setting .traverseSlowDuty else s.setting .traverseFastDuty

/-- R104, R111, R112: whether the traverse may run in a direction. -/
def State.mayTraverse (s : State) (way : TraverseWay) : Bool :=
  s.fitted && s.asserted .top && !(s.inhibited && way == .outward)

/-- R111, R112: whether the hoist may run in a direction. -/
def State.mayHoist (s : State) (way : HoistWay) : Bool := s.fitted && !(s.inhibited && way == .down)

/-- R93: a drive at a boundary: a waiting command starts it if the interlocks permit, and a drive that is on takes
its duty. -/
def Drive.atBoundary {δ : Type} (d : Drive δ) (may : δ → Bool) (duty : Int) : Drive δ :=
  match d.start with
  | some way => if may way then d.begin way duty else d
  | none => if d.on then { d with duty := duty } else d

/-- R93, R108: a period boundary; a drive that starts while Snag is asserted makes a snag. -/
def drivePeriodBoundary (s : State) : Moved :=
  snagTest (s.setCable { s.cable with
    traverse := s.cable.traverse.atBoundary s.mayTraverse s.traverseDuty,
    hoist := s.cable.hoist.atBoundary s.mayHoist (s.setting .hoistDuty) })

/-! ### The inhibit (R111, R106) -/

/-- R111: the instant CableInhibit enters: Outward and Down drives go off at once. -/
def Cableway.heldBack (c : Cableway) : Cableway :=
  { c with
    traverse := if c.traverse.way = .outward ∧ c.traverse.on ∨ c.traverse.start = some .outward
      then c.traverse.off else c.traverse,
    hoist := if c.hoist.way = .down ∧ c.hoist.on ∨ c.hoist.start = some .down then c.hoist.off else c.hoist }

/-- R106, R111: the controller takes up CableInhibit at the instant it enters. An Outward movement whose carry
recovery runs the hoist Up goes on (LOG 15). -/
def inhibitCable (s : State) : Moved :=
  let s' := s.setCable s.cable.heldBack
  match s.cable.activity with
  | .moving (.traverseTo _ .outward) => if s.cable.recovering then going s' else endMovement s' .holding .inhibited
  | .moving (.lowerTo _ _ _ _) => endMovement s' .holding .inhibited
  | .homing .release => going (beginPhase .find .inward s')
  | _ => going s'

/-! ### Requests, RESTART -/

/-- R110: CLEAR FAULT. Parameters are refused before the state is tested (LOG 33: the model's inference). -/
def clearFault (params : List Byte) (s : State) : Taken :=
  match params with
  | [] =>
    if s.cable.state = .halted then done (s.setCable { s.cable with state := .unhomed, haltedKnown := false }) []
    else refused s .wrongState 0
  | _ => badField s 0

/-- R105: HOME CARRIAGE. Parameters are refused before the checks are made (LOG 33: the model's inference). -/
def homeCarriage (params : List Byte) (s : State) : Taken :=
  match params with
  | [] =>
    if ¬ s.fitted then refused s .notFitted 0
    else match s.gauging.run.state with
      | .armed | .running | .returning => refused s .wrongState 0
      | _ =>
        if s.cable.state = .unhomed ∨ s.cable.state = .parked then accepted (beginHoming s) []
        else refused s .wrongState 0
  | _ => badField s 0

/-- R113: RESTART stops the cableway and leaves it Unhomed; a movement in progress ends with Restarted. -/
def restartCable (s : State) : Moved :=
  { state := s.setCable { (s.rest .unhomed).cable with haltedKnown := false },
    result := match s.cable.activity with
      | .moving _ => some .restarted
      | _ => none }

/-! ### Meanings -/

/-- CLEAR_FAULT (R110). -/
def execClearFault (params : List Byte) (s : State) : Host.Outcome State Fault Refusal :=
  onSelectPeriod (takeRequest RequestName.clearFault.code params clearFault) s

/-- HOME_CARRIAGE (R105). -/
def execHomeCarriage (params : List Byte) (s : State) : Host.Outcome State Fault Refusal :=
  onSelectPeriod (takeRequest RequestName.homeCarriage.code params homeCarriage) s

end Sys2Proof.Machine
end

