-- ==== Sys2Proof/Machine/Ratings.lean ====
section
/-! DEFINITION. Ratings (chapter 3): lookups, adoption, editing the draft, LOOKUP; and shift bands (chapter 4): the
containing band, defining and retiring, the ramp, and the store's part of an acceptance. -/

namespace Sys2Proof.Machine

/-! ### Shift bands in use -/

/-- R64, R66: a band covers its lower stage up to but not including its upper stage. -/
def Band.covers (b : Band) (stage : Int) : Bool := decide (b.lower ≤ stage) && decide (stage < b.upper)

/-- The slots of the shift table in order. -/
def ShiftTable.slots (t : ShiftTable) : List (Nat × Option Band) :=
  (List.finRange Config.shiftBands).map fun i => (i.val, t.get i)

/-- The bands in use, with their slots, in slot order. -/
def ShiftTable.inUse (t : ShiftTable) : List (Nat × Band) :=
  t.slots.filterMap fun p => p.2.map fun b => (p.1, b)

/-- R66: the containing band of a stage, with its slot. -/
def ShiftTable.containing (t : ShiftTable) (stage : Int) : Option (Nat × Band) :=
  t.inUse.find? fun p => p.2.covers stage

/-- The band in a slot. -/
def ShiftTable.band (t : ShiftTable) (slot : Nat) : Option Band := (t[slot]?).join

/-- The table with one slot replaced. -/
def ShiftTable.put (t : ShiftTable) (slot : Nat) (b : Option Band) : ShiftTable := t.setIfInBounds slot b

/-- R54, R78: every slot Empty. -/
def ShiftTable.empty : ShiftTable := Vector.replicate _ none

/-- The shift table replaced. -/
def State.setBands (s : State) (t : ShiftTable) : State := s.setRating { s.rating with bands := t }

/-! ### Lookups -/

/-- R60: the lookup result. -/
structure LookupResult where
  number : BitVec 16
  stage : Int
  slot : Option Nat
  applied : Int
  effective : Int
  discharge : Option Int
  flag : LookupFlag
  deriving DecidableEq, Repr

/-- R60: the discharge at a stage on the line through two points, rounded once. -/
def onSegment (lower upper : Point) (h : Int) : Int :=
  lower.discharge +
    roundHalfUp ((upper.discharge - lower.discharge) * (h - lower.stage)) (upper.stage - lower.stage)

/-- R59 items 4 and 5: the discharge above the first point of a list of points, along the segment that holds the
effective stage or beyond the last segment. -/
def alongSegments (lower : Point) : List Point → Int → Int × LookupFlag
  | [], _ => (lower.discharge, .aboveRating)
  | [upper], h =>
    if h ≤ upper.stage then (onSegment lower upper h, .inRating)
    else (min Config.dischargeMax (onSegment lower upper h), .aboveRating)
  | upper :: next :: rest, h =>
    if h ≤ upper.stage then (onSegment lower upper h, .inRating) else alongSegments upper (next :: rest) h

/-- R59 items 2 to 5: the discharge and flag of an effective stage on the points of a rating. -/
def rateStage (points : List Point) (h : Int) : Option Int × LookupFlag :=
  match points with
  | [] => (none, .noRating)
  | first :: rest =>
    if h ≤ first.stage then (some first.discharge, .belowRating)
    else (some (alongSegments first rest h).1, (alongSegments first rest h).2)

/-- R59, R60, R62: a forward lookup of a stage in the active rating with the shifts of this instant. -/
def forwardLookup (s : State) (stage : Int) : LookupResult :=
  let band := s.rating.bands.containing stage
  let applied := (band.map fun p => p.2.applied).getD 0
  let rated := rateStage s.rating.active.points (stage + applied)
  { number := s.rating.active.number, stage := stage, slot := band.map fun p => p.1, applied := applied,
    effective := stage + applied, discharge := rated.1, flag := rated.2 }

/-- R61: the stage at a discharge along the segments above a point; none when the discharge is above the last. -/
def inverseAlong (lower : Point) : List Point → Int → Option Int
  | [], _ => none
  | upper :: rest, q =>
    if q ≤ upper.discharge then
      some (lower.stage +
        roundHalfUp ((upper.stage - lower.stage) * (q - lower.discharge)) (upper.discharge - lower.discharge))
    else inverseAlong upper rest q

/-- R61: the inverse lookup of a discharge, without any shift; none where it fails with OutOfLimits. -/
def inverseLookup (points : List Point) (q : Int) : Option Int :=
  match points with
  | [] => none
  | first :: rest => if q < first.discharge then none else inverseAlong first rest q

/-- 11.4: the 19 bytes of a forward lookup result. -/
def LookupResult.bytes (r : LookupResult) : List Byte :=
  be2 r.number.toNat ++ be1 (flagBits [r.slot.isSome, r.discharge.isSome]) ++ be4 r.stage ++
  be1 (r.slot.getD 0 : Nat) ++ be2 r.applied ++ be4 r.effective ++ be4 (orZero r.discharge) ++ be1 r.flag.code

/-- R63: LOOKUP. An inverse discharge out of range is BadField and not OutOfLimits (LOG 31: the model's choice). -/
def lookup (params : List Byte) (s : State) : Taken :=
  match readWords params with
  | some [direction, value] =>
    if direction = 0 then
      if within Config.stageMin Config.stageMax value.toInt then done s (forwardLookup s value.toInt).bytes
      else badField s 1
    else if direction = 1 then
      if within 0 Config.dischargeMax value.toInt then
        match inverseLookup s.rating.active.points value.toInt with
        | some stage => done s (be2 s.rating.active.number.toNat ++ be4 value.toInt ++ be4 stage)
        | none => refused s .outOfLimits 0
      else badField s 1
    else badField s 0
  | _ => badField s 0

/-! ### The draft and adoption -/

/-- R42, R56: a taken change of the draft, which ends an adoption in flight with DraftChanged. -/
def draftChange (points : List Point) (s : State) : State :=
  match s.rating.adoption.request with
  | none => s.setRating { s.rating with draft := points }
  | some _ =>
    (s.setRating { s.rating with draft := points,
                                 adoption := { request := none, lastOutcome := .rejectedDraftChanged } }).raise
      .ratingRejected

/-- R48: the commit of a point to the draft at an index: the new draft, or the reason and detail of the refusal. -/
def commitPoint (s : State) (index : Nat) (p : Point) : Except (Reject × Nat) (List Point) :=
  let draft := s.rating.draft
  if ¬ within (s.setting .stageFloor) (s.setting .stageCeiling) p.stage then .error (.badField, 0)
  else if ¬ within 0 Config.dischargeMax p.discharge then .error (.badField, 1)
  else if draft.length < index then .error (.gap, 0)
  else if (draft.take index ++ draft.drop (index + 1)).any fun q => decide (q.stage = p.stage) then
    .error (.badField, 0)
  else if index < draft.length then .ok (draft.set index p)
  else .ok (draft ++ [p])

/-- R51: RETIRE POINT. An index past 47 is BadField and not NotFound (LOG 31: the model's choice). -/
def retirePoint (params : List Byte) (s : State) : Taken :=
  match readWords params with
  | some [index] =>
    match slotOf Config.ratingPoints index with
    | none => badField s 0
    | some k =>
      if s.rating.draft.length ≤ k then refused s .notFound 0
      else done (draftChange (s.rating.draft.eraseIdx k) s) (be1 (s.rating.draft.eraseIdx k).length)
  | _ => badField s 0

/-- R52: COPY RATING. -/
def copyRating (params : List Byte) (s : State) : Taken :=
  match params with
  | [] => done (draftChange s.rating.active.points s) (be1 s.rating.active.points.length)
  | _ => badField s 0

/-- R53: ADOPT RATING. The number is tested first, then the option, then the adoption in flight (LOG 31: the model's
choice). -/
def adoptRating (params : List Byte) (s : State) : Taken :=
  match readWords params with
  | some [number, time, option] =>
    if ¬ within 0 65535 number.toInt then badField s 0
    else match ShiftOption.ofCode option with
      | none => badField s 2
      | some o =>
        if s.rating.adoption.request.isSome then refused s .adoptionPending 0
        else accepted (s.setRating { s.rating with
          adoption := { s.rating.adoption with
            request := some { number := number.setWidth 16, effectiveFrom := time, option := o } } }) []
  | _ => badField s 0

/-- R54: the index of the first point that is not above the point before it in stage and in discharge, for points
that follow a given point of a given index. -/
def firstDisorder (before : Point) (index : Nat) : List Point → Option Nat
  | [] => none
  | p :: rest =>
    if before.stage < p.stage ∧ before.discharge < p.discharge then firstDisorder p (index + 1) rest
    else some (index + 1)

/-- R54, R55: validation of a draft: the outcome of a failure, or none when it passes. -/
def validateDraft : List Point → Option AdoptionOutcome
  | [] => some .rejectedTooFew
  | [_] => some .rejectedTooFew
  | p :: q :: rest => (firstDisorder p 0 (q :: rest)).map .rejectedOrder

/-- R54, R55: an adoption in flight completes. With none in flight there is no completion. -/
def adoptionCompletion (s : State) : State :=
  match s.rating.adoption.request with
  | none => s
  | some r =>
    match validateDraft s.rating.draft with
    | some failure =>
      (s.setRating { s.rating with adoption := { request := none, lastOutcome := failure } }).raise .ratingRejected
    | none =>
      (s.setRating { s.rating with
        active := { points := s.rating.draft, number := r.number, effectiveFrom := r.effectiveFrom },
        bands := if r.option = .clear then ShiftTable.empty else s.rating.bands,
        adoption := { request := none, lastOutcome := .adopted r.number } }).raise .ratingAdopted

/-- R57: RESTART abandons an adoption in flight and keeps the last outcome. -/
def abandonAdoption (s : State) : State :=
  s.setRating { s.rating with adoption := { s.rating.adoption with request := none } }

/-! ### Defining and retiring a band -/

/-- R67: two ranges overlap when some stage belongs to both. -/
def Band.overlaps (b : Band) (lower upper : Int) : Bool := decide (lower < b.upper) && decide (b.lower < upper)

/-- R67 check 6: a range overlaps a band in use in another slot. -/
def ShiftTable.clash (t : ShiftTable) (slot : Nat) (lower upper : Int) : Bool :=
  t.inUse.any fun p => p.1 != slot && p.2.overlaps lower upper

/-- R187: the 21-byte band record of a slot. -/
def bandBytes (slot : Nat) (b : Option Band) : List Byte :=
  match b with
  | none => be1 slot ++ be1 0 ++ be4 0 ++ be4 0 ++ be2 0 ++ be2 0 ++ be1 0 ++ be2 0 ++ be4 0
  | some b =>
    be1 slot ++ be1 b.state.code ++ be4 b.lower ++ be4 b.upper ++ be2 b.target ++ be2 b.applied ++
    (match b.origin with
      | .manual => be1 0 ++ be2 0
      | .gauging id => be1 1 ++ be2 id.toNat) ++
    beWord b.changed

/-- R68: the band a taken DEFINE SHIFT leaves in a slot. -/
def definedBand (s : State) (old : Option Band) (lower upper target : Int) : Band :=
  { state := .ramping, lower := lower, upper := upper, target := target,
    applied := (old.map fun b => b.applied).getD 0, origin := .manual, changed := s.clock }

/-- R67, R68: DEFINE SHIFT. -/
def defineShift (params : List Byte) (s : State) : Taken :=
  match readWords params with
  | some [slot, lower, upper, target] =>
    match slotOf Config.shiftBands slot with
    | none => badField s 0
    | some k =>
      if ¬ within Config.stageMin Config.stageMax lower.toInt then badField s 1
      else if ¬ within Config.stageMin Config.stageMax upper.toInt then badField s 2
      else if upper.toInt ≤ lower.toInt then badField s 2
      else if ¬ within (-s.setting .shiftLimit) (s.setting .shiftLimit) target.toInt then refused s .outOfLimits 0
      else if s.rating.bands.clash k lower.toInt upper.toInt then refused s .noRoom 0
      else
        let b := definedBand s (s.rating.bands.band k) lower.toInt upper.toInt target.toInt
        done (s.setBands (s.rating.bands.put k (some b))) (bandBytes k (some b))
  | _ => badField s 0

/-- R69: a band retired. -/
def Band.retire (clock : Word) (b : Band) : Band :=
  match b.state with
  | .retiring => b
  | _ => { b with state := .retiring, target := 0, changed := clock }

/-- R69: RETIRE SHIFT. -/
def retireShift (params : List Byte) (s : State) : Taken :=
  match readWords params with
  | some [slot] =>
    match slotOf Config.shiftBands slot with
    | none => badField s 0
    | some k =>
      match s.rating.bands.band k with
      | none => refused s .notFound 0
      | some b =>
        done (s.setBands (s.rating.bands.put k (some (b.retire s.clock)))) (bandBytes k (some (b.retire s.clock)))
  | _ => badField s 0

/-- R70: READ SHIFTS. -/
def readShifts (params : List Byte) (s : State) : Taken :=
  match params with
  | [] => done s ((s.rating.bands.slots.flatMap fun p => bandBytes p.1 p.2) ++ be2 (s.setting .shiftLimit) ++
      be2 s.rating.ramp.length ++ be2 s.rating.ramp.elapsed)
  | _ => badField s 0

/-! ### The ramp -/

/-- R72: whether the record lets every moving band reach its target at once. -/
def StageRecord.steadyAndTrusted (r : StageRecord) : Bool :=
  r.trend == .steady && (r.quality == .good || r.quality == .failover)

/-- R72: a shift moved toward its target by a step, stopping at the target. -/
def towards (step applied target : Int) : Int :=
  if applied ≤ target then min target (applied + step) else max target (applied - step)

/-- R72, R73: a band after a ramp expiry: moved, and then checked. -/
def Band.ramp (jump : Bool) (step : Int) (b : Band) : Option Band :=
  match b.state with
  | .applied => some b
  | .ramping =>
    let applied := if jump then b.target else towards step b.applied b.target
    some { b with applied := applied, state := if applied = b.target then .applied else .ramping }
  | .retiring =>
    let applied := if jump then b.target else towards step b.applied b.target
    if applied = 0 then none else some { b with applied := applied }

/-- R71 to R73: the ramp timer expires, all bands move together, and the next interval begins. -/
def rampExpiry (s : State) : State :=
  s.setRating { s.rating with
    bands := Vector.ofFn fun i =>
      (s.rating.bands.get i).bind fun b => b.ramp s.stage.record.steadyAndTrusted (s.setting .rampStep)
    ramp := { length := (s.setting .rampInterval).toNat, elapsed := 0 } }

/-! ### Acceptance of a gauging -/

/-- What the Rating Store hands back for a taken acceptance. -/
structure Placement where
  state : State
  slot : Nat
  lower : Int
  upper : Int
  placedNew : Bool

/-- R77: the lower stage of a new band's range, clipped. -/
def clippedLower (bands : List Band) (mean halfWidth : Int) : Int :=
  greatest (max Config.stageMin (mean - halfWidth))
    ((bands.filter fun b => decide (b.upper ≤ mean)).map fun b => b.upper)

/-- R77: the upper stage of a new band's range, clipped. -/
def clippedUpper (bands : List Band) (mean halfWidth : Int) : Int :=
  least (min Config.stageMax (mean + halfWidth))
    ((bands.filter fun b => decide (mean < b.lower)).map fun b => b.lower)

/-- R76: a band retargeted by an acceptance. -/
def Band.retarget (clock : Word) (id : BitVec 16) (proposal : Int) (b : Band) : Band :=
  { b with target := proposal, origin := .gauging id, changed := clock, state := .ramping }

/-- R76, R77: the Rating Store takes an acceptance, or refuses it with a reason. -/
def acceptShift (s : State) (id : BitVec 16) (mean proposal : Int) : Except Reject Placement :=
  if ¬ within (-s.setting .shiftLimit) (s.setting .shiftLimit) proposal then .error .outOfLimits
  else match s.rating.bands.containing mean with
    | some (k, b) =>
      .ok { state := s.setBands (s.rating.bands.put k (some (b.retarget s.clock id proposal))), slot := k,
            lower := b.lower, upper := b.upper, placedNew := false }
    | none =>
      let bands := s.rating.bands.inUse.map fun p => p.2
      let lower := clippedLower bands mean (s.setting .shiftHalfWidth)
      let upper := clippedUpper bands mean (s.setting .shiftHalfWidth)
      match s.rating.bands.slots.find? fun p => p.2.isNone with
      | none => .error .tableFull
      | some (k, _) =>
        if upper - lower < Config.bandWidthMin then .error .noRoom
        else
          .ok { state := s.setBands (s.rating.bands.put k (some
                  { state := .ramping, lower := lower, upper := upper, target := proposal, applied := 0,
                    origin := .gauging id, changed := s.clock })),
                slot := k, lower := lower, upper := upper, placedNew := true }

/-! ### Meanings -/

/-- RETIRE_POINT (R51). -/
def execRetirePoint (params : List Byte) (s : State) : Host.Outcome State Fault Refusal :=
  onSelectPeriod (takeRequest RequestName.retirePoint.code params retirePoint) s

/-- COPY_RATING (R52). -/
def execCopyRating (params : List Byte) (s : State) : Host.Outcome State Fault Refusal :=
  onSelectPeriod (takeRequest RequestName.copyRating.code params copyRating) s

/-- ADOPT_RATING (R53). -/
def execAdoptRating (params : List Byte) (s : State) : Host.Outcome State Fault Refusal :=
  onSelectPeriod (takeRequest RequestName.adoptRating.code params adoptRating) s

/-- LOOKUP (R63). -/
def execLookup (params : List Byte) (s : State) : Host.Outcome State Fault Refusal :=
  onSelectPeriod (takeRequest RequestName.lookup.code params lookup) s

/-- DEFINE_SHIFT (R67). -/
def execDefineShift (params : List Byte) (s : State) : Host.Outcome State Fault Refusal :=
  onSelectPeriod (takeRequest RequestName.defineShift.code params defineShift) s

/-- RETIRE_SHIFT (R69). -/
def execRetireShift (params : List Byte) (s : State) : Host.Outcome State Fault Refusal :=
  onSelectPeriod (takeRequest RequestName.retireShift.code params retireShift) s

/-- READ_SHIFTS (R70). -/
def execReadShifts (params : List Byte) (s : State) : Host.Outcome State Fault Refusal :=
  onSelectPeriod (takeRequest RequestName.readShifts.code params readShifts) s

/-- RAMP_EXPIRY (R72). -/
def execRampExpiry (s : State) : Host.Outcome State Fault Refusal :=
  unlessHeld rampExpiry s

/-- ADOPTION_COMPLETION (R54). -/
def execAdoptionCompletion (s : State) : Host.Outcome State Fault Refusal :=
  unlessHeld adoptionCompletion s

end Sys2Proof.Machine
end

