-- ==== Sys2Proof/Machine/Verticals.lean ====
section
/-! DEFINITION. The section table (chapter 5): commits, the depth at a vertical, and soundings. RETIRE VERTICAL
stands with the Gauging Unit, whose Armed run it tests. -/

namespace Sys2Proof.Machine

/-- R84: the table is locked while the run is Running or Returning. -/
def RunState.locks : RunState → Bool
  | .running | .returning => true
  | .none | .armed | .complete | .aborted | .accepted | .expired => false

/-- R84: whether the section table is locked. -/
def State.sectionLocked (s : State) : Bool := s.gauging.run.state.locks

/-- R79: whether the flag of a vertical is Measure. -/
def Vertical.measured (v : Vertical) : Bool := v.skip == .measure

/-- The verticals that would stand just below and just above an index (R81): whether a distance lies strictly
between them. -/
def betweenNeighbours (table : List Vertical) (index : Nat) (distance : Int) : Bool :=
  (match index with
    | 0 => true
    | k + 1 => match table[k]? with
      | some v => decide (v.distance < distance)
      | none => true) &&
  (match table[index + 1]? with
    | some v => decide (distance < v.distance)
    | none => true)

/-- R81, R82: the commit of a vertical at an index: the new table, or the reason and detail of the refusal. -/
def commitVertical (s : State) (index : Nat) (distance bed plan skip : Word) :
    Except (Reject × Nat) (List Vertical) :=
  if s.sectionLocked then .error (.locked, 0)
  else if ¬ within (s.setting .spanStart) (s.setting .spanEnd) distance.toInt then .error (.badField, 0)
  else if ¬ within Config.stageMin Config.stageMax bed.toInt then .error (.badField, 1)
  else match MeasurePlan.ofCode plan, SkipFlag.ofCode skip with
    | none, _ => .error (.badField, 2)
    | some _, none => .error (.badField, 3)
    | some p, some f =>
      if s.verticals.length < index then .error (.gap, 0)
      else if ¬ betweenNeighbours s.verticals index distance.toInt then .error (.badField, 0)
      else
        let v : Vertical :=
          { distance := distance.toInt, bed := bed.toInt, plan := p, skip := f, source := .survey,
            soundedTime := none }
        if index < s.verticals.length then .ok (s.verticals.set index v) else .ok (s.verticals ++ [v])

/-- R86: the depth at a vertical for a stage. -/
def depthAt (bed stage : Int) : Int := clampTo 0 Config.depthMax (stage - bed)

/-- R89: what the table reports of a sounding. -/
inductive SoundingReport where
  | updated | kept | notTaken
  deriving DecidableEq, Repr

/-- R88: the sounded bed, held at the low limit. Above +30,000, which R88 does not treat, it is not held (LOG 30: the
model's choice). -/
def soundedBed (stage depth : Int) : Int := max Config.stageMin (stage - depth)

/-- R89: a vertical after a sounding taken with a Good stage, and the report. -/
def Vertical.sound (tolerance : Int) (clock : Word) (bed : Int) (v : Vertical) : Vertical × SoundingReport :=
  if tolerance < (bed - v.bed).natAbs then
    ({ v with bed := bed, source := .sounded, soundedTime := some clock }, .updated)
  else ({ v with soundedTime := some clock }, .kept)

/-- R87 to R89: a sounding handed to the section table, and the table's report. -/
def takeSounding (index : Nat) (depth : Int) (s : State) : State × SoundingReport :=
  match s.stage.record.quality, s.stage.record.stage, s.verticals[index]? with
  | .good, some stage, some v =>
    let sounded := v.sound (s.setting .bedTolerance) s.clock (soundedBed stage depth)
    (s.setVerticals (s.verticals.set index sounded.1), sounded.2)
  | _, _, _ => (s, .notTaken)

/-- 11.4: the 16-byte vertical record of READ ENTRIES. -/
def verticalBytes (v : Option Vertical) : List Byte :=
  match v with
  | none => be1 0 ++ be4 0 ++ be4 0 ++ be1 0 ++ be1 0 ++ be1 0 ++ be4 0
  | some v =>
    be1 (flagBits [true, v.soundedTime.isSome]) ++ be4 v.distance ++ be4 v.bed ++ be1 v.plan.code ++
    be1 v.skip.code ++ be1 v.source.code ++ beWord (v.soundedTime.getD 0)

end Sys2Proof.Machine
end

