-- ==== Sys2Proof/Machine/Gauging.lean ====
section
/-! DEFINITION. The Gauging Unit (chapter 7): the meter, the run from its start to its end, the discharge, and the
gauging requests. A result of the Cableway Controller is handled in one step that may ask for the next movement;
`drain` follows the results that come at once. -/

namespace Sys2Proof.Machine

/-! ### Small readings -/

/-- The run record. -/
def State.run (s : State) : RunRecord := s.gauging.run

/-- The indices of the section's Measure verticals, in ascending distance (R117). -/
def State.measureIndices (s : State) : List Nat :=
  (List.range s.verticals.length).filter fun i => (s.verticals[i]?.map Vertical.measured).getD false

/-- R117: the next vertical of the visit list after the current one. -/
def State.nextVisit (s : State) : Option Nat :=
  match s.run.current with
  | none => s.gauging.visit.head?
  | some c => s.gauging.visit.find? fun i => decide (c < i)

/-- The entry of the vertical in progress: the last of the results (R119). -/
def State.entry (s : State) : Option Entry := s.run.results.getLast?

/-- The entry of the vertical in progress changed in place (R119). -/
def State.updateEntry (s : State) (f : Entry → Entry) : State :=
  s.setRun { s.run with results := updateLast f s.run.results }

/-- The step of the run set. -/
def State.setStep (s : State) (x : Step) : State := s.setRun { s.run with step := some x }

/-- A movement asked of the Cableway Controller under a step (R118). -/
def ask (x : Step) (m : MoveRequest) (s : State) : Moved := takeMovement m (s.setStep x)

/-! ### Entries -/

/-- R119: an entry with every optional field absent and no flag. -/
def Entry.blank (index : Nat) (distance : Int) : Entry :=
  { index := index, distance := distance, arrivalStage := none, depthUsed := none, soundedDepth := none,
    points := [], mean := none, discharge := none, dry := false, surfaceOnly := false, noBottom := false,
    bedUpdated := false, skipped := false }

/-- R124, R129: the Skipped entries of the Skip verticals beyond the last entry and below a distance, if one is
given. -/
def State.skippedEntries (s : State) (below : Option Int) : List Entry :=
  (List.range s.verticals.length).filterMap fun i =>
    match s.verticals[i]? with
    | some v =>
      if v.skip = .skip ∧ ((s.entry.map fun e => decide (e.distance < v.distance)).getD true)
          ∧ ((below.map fun d => decide (v.distance < d)).getD true) then
        some { Entry.blank i v.distance with skipped := true }
      else none
    | none => none

/-- The results with entries appended. -/
def State.appendEntries (s : State) (es : List Entry) : State :=
  s.setRun { s.run with results := s.run.results ++ es }

/-- R124: a Dry vertical: depth used, mean velocity 0 and the flag. -/
def Entry.markDry (depth : Int) (e : Entry) : Entry :=
  { e with depthUsed := some depth, mean := some 0, dry := true }

/-! ### Velocities and discharge -/

/-- R115: the revolutions of a dwell. -/
def revolutions (m : MeterSettings) (pulses : Nat) : Int := Int.tdiv pulses m.pulsesPerRevolution

/-- R115: the point velocity of a dwell. -/
def pointVelocity (m : MeterSettings) (d : Dwell) : Int :=
  if revolutions m d.pulses < m.minimumRevolutions then 0
  else min Config.velocityMax (roundHalfUp (m.offset * d.length + m.slope * revolutions m d.pulses) d.length)

/-- R127: the fractions of a plan, in tenths of the depth, deepest first. -/
def MeasurePlan.fractions : MeasurePlan → List Int
  | .single => [6]
  | .twoPoint => [8, 2]
  | .threePoint => [8, 6, 2]
  | .surfaceOnly => []

/-- R127: the depth of a point. -/
def pointDepth (depthUsed fraction : Int) : Int := roundHalfUp (depthUsed * fraction) 10

/-- R128: the mean velocity of the points of a plan, deepest first. -/
def meanVelocity : List Int → Option Int
  | [v] => some v
  | [deep, shallow] => some (roundHalfUp (shallow + deep) 2)
  | [deep, middle, shallow] => some (roundHalfUp (shallow + 2 * middle + deep) 4)
  | _ => none

/-- R130: the distance of the next entry of a Measure vertical. -/
def nextMeasured : List Entry → Option Int
  | [] => none
  | e :: es => if e.skipped then nextMeasured es else some e.distance

/-- R130: the partial discharge of an entry whose panel is half of a double width wide. -/
def Entry.panel (doubleWidth : Int) (e : Entry) : Option Int :=
  match e.mean, e.depthUsed with
  | some v, some d => some (roundHalfUp (v * d * doubleWidth) 200000)
  | _, _ => none

/-- R130: the partial discharges written at completion, given the distance of the Measure vertical before. -/
def fillDischarges (before : Option Int) : List Entry → List Entry
  | [] => []
  | e :: es =>
    if e.skipped then e :: fillDischarges before es
    else
      { e with discharge := e.panel ((nextMeasured es).getD e.distance - before.getD e.distance) } ::
        fillDischarges (some e.distance) es

/-- R131 a: the measured discharge. -/
def measuredDischarge (es : List Entry) : Int :=
  min Config.dischargeMax ((es.map fun e => orZero e.discharge).foldr (· + ·) 0)

/-- R131 b: the mean stage. -/
def meanStage (start finish : Int) : Int := roundHalfUp (start + finish) 2

/-- R131 d: the ratio in per mille. -/
def ratioOf (measured : Int) (rated : Option Int) : Option Int :=
  match rated with
  | some q => if q = 0 then none else some (roundHalfUp (measured * 1000) q)
  | none => none

/-! ### The ends of a run -/

/-- R129, R133: the end time stamped and the end stage taken from the stage record published last. -/
def RunRecord.stampEnd (s : State) (r : RunRecord) : RunRecord :=
  { r with endTime := some s.clock, endStage := s.stage.record.stage }

/-- R117: a run that is over keeps no step, current vertical, visit list, trigger, wait or dwell; RunEnded is
raised. -/
def endRun (r : RunRecord) (s : State) : State :=
  (s.setGauging { s.gauging with
    run := { r with step := none, current := none, triggerMet := none, waitRemaining := none },
    visit := [], dwell := none }).raise .runEnded

/-- R130, R131: the totals of a completed run, with its entries filled, and whether it was unsteady. -/
def totalsOf (s : State) (es : List Entry) : Totals × Bool :=
  let measured := measuredDischarge es
  match s.run.startStage, s.run.endStage with
  | some a, some b =>
    let rated := forwardLookup s (meanStage a b)
    ({ measured := measured, rated := rated.discharge, flag := rated.flag,
       ratio := ratioOf measured rated.discharge, proposed := none },
     decide (s.setting .unsteadyLimit < ((b - a).natAbs : Int)))
  | _, _ => ({ measured := measured, rated := none, flag := .noRating, ratio := none, proposed := none }, false)

/-- R129 to R131: the run becomes Complete and its discharge is worked out. -/
def completeRun (s : State) : State :=
  let es := fillDischarges none s.run.results
  endRun { s.run with state := .complete, endReason := some .complete, results := es,
                      totals := some (totalsOf s es).1,
                      flags := { s.run.flags with unsteady := (totalsOf s es).2 } } s

/-- R129, R133: Home is reached by a Returning run: Aborted when an end reason is present, else Complete. -/
def finishReturn (s : State) : State :=
  match s.run.endReason with
  | some _ => endRun { s.run with state := .aborted } s
  | none => completeRun s

/-- R133: an abort of a Running run. A traverse or lowering in progress is stopped, a raise runs to its end, and a
carriage already Parked ends Returning at once (R129). While the raise of Place or Stow runs to its end the step is
ReturnRaise, though in Place the movement is a RaiseTo (R117, R118, LOG 35: the model's choice). -/
def abortRun (reason : EndReason) (s : State) : Moved :=
  let r := { s.run.stampEnd s with
    state := .returning, step := some .returnRaise, current := none, endReason := s.run.endReason.or (some reason) }
  let s' := s.setGauging { s.gauging with run := r, dwell := none }
  match s.cable.activity, s.cable.state with
  | .moving (.traverseTo _ _), _ => stopMovement s'
  | .moving (.lowerTo _ _ _ _), _ => stopMovement s'
  | .moving _, _ => going s'
  | _, .parked => going (finishReturn s')
  | _, _ => ask .returnRaise .raiseToTop s'

/-- R135: the kind a run records for the last fault. -/
def FaultKind.endReason : FaultKind → EndReason
  | .jam _ => .jam
  | .snag => .snag

/-- R135: the kind in the run's Fault field. -/
def FaultKind.runFault : FaultKind → RunFault
  | .jam _ => .jam
  | .snag => .snag

/-- R135: a movement result Faulted ends the run. -/
def faultedEnd (s : State) : State :=
  match s.cable.lastFault, s.run.endReason with
  | some f, none => endRun { s.run.stampEnd s with state := .aborted, endReason := some f.kind.endReason } s
  | some f, some _ => endRun { s.run with state := .aborted, fault := some f.kind.runFault } s
  | none, _ => endRun { s.run with state := .aborted } s

/-- R136: RESTART ends an Armed, Running or Returning run as Aborted; of a run under way it is the movement's result
Restarted that does so, or RESTART itself in a dwell. -/
def restartRun (s : State) : State :=
  match s.run.state with
  | .armed | .running | .returning =>
    endRun { s.run with
      state := .aborted, endReason := s.run.endReason.or (some .restarted),
      endTime := s.run.endTime.or (some s.clock), endStage := s.run.endStage.or s.stage.record.stage } s
  | _ => s

/-! ### Measuring the section -/

/-- R124: the Traverse step of a vertical begins: it is the current vertical and the Skip verticals passed are
entered. -/
def enterVertical (i : Nat) (s : State) : State :=
  match s.verticals[i]? with
  | some v =>
    ((s.setRun { s.run with current := some i, step := some .traverse }).appendEntries
      (s.skippedEntries (some v.distance)))
  | none => s

/-- R124: the traverse to a vertical is asked for. -/
def traverseToVertical (i : Nat) (s : State) : Moved :=
  match s.verticals[i]? with
  | some v => ask .traverse (.traverseTo v.distance) s
  | none => going s

/-- R129: the last vertical is finished and the run becomes Returning. -/
def endMeasuring (s : State) : Moved :=
  let arrival := s.entry.bind fun e => e.arrivalStage
  let r := { (s.appendEntries (s.skippedEntries none)).run with
    state := .returning, current := none, endTime := some s.clock, endStage := s.stage.record.stage.or arrival }
  ask .returnRaise .raiseToTop (s.setRun r)

/-- R128: a vertical is finished: the next of the visit list, or the end of measuring. -/
def finishVertical (s : State) : Moved :=
  match s.nextVisit with
  | some i => traverseToVertical i (enterVertical i s)
  | none => endMeasuring s

/-- R128: the weight is stowed. -/
def stow (s : State) : Moved := ask .stow .raiseToTop s

/-- R125, R126: the vertical is Dry with the arrival depth, and the weight is stowed. -/
def stowDry (s : State) : Moved := stow (s.updateEntry (Entry.markDry s.gauging.arrivalDepth))

/-- R127: the next point of the plan is asked for, the one after the points already measured. -/
def placeNext (s : State) : Moved :=
  match s.entry, s.run.current.bind fun i => s.verticals[i]? with
  | some e, some v =>
    match v.plan.fractions[e.points.length]?, e.depthUsed with
    | some f, some d => ask .place (.raiseTo (pointDepth d f)) s
    | _, _ => stow s
  | _, _ => stow s

/-- R127, R126: a dwell begins, with the dwell setting in force. -/
def beginDwell (surface : Bool) (s : State) : Moved :=
  going ((s.setStep .dwell).setGauging { (s.setStep .dwell).gauging with
    dwell := some { length := (s.setting .dwell).toNat, elapsed := 0, pulses := 0, surface := surface } })

/-- R124: the arrival at the current vertical, with a record that has a stage. -/
def arriveWith (i : Nat) (v : Vertical) (stage : Int) (s : State) : Moved :=
  let depth := depthAt v.bed stage
  let entered := s.appendEntries [{ Entry.blank i v.distance with arrivalStage := some stage }]
  let s' := entered.setGauging { entered.gauging with
    run := { entered.run with startStage := entered.run.startStage.or (some stage) }, arrivalDepth := depth }
  let surfaceEffect := !s.warning.effects.surfaceOnly.isEmpty
  if depth < s.setting .minimumDepth then finishVertical (s'.updateEntry (Entry.markDry depth))
  else if surfaceEffect || v.plan == .surfaceOnly then
    ask .surfaceLower (.lowerTo Config.surfaceDepth false)
      (s'.setRun { s'.run with
        flags := { s'.run.flags with surfaceUsed := s'.run.flags.surfaceUsed || surfaceEffect } })
  else ask .sound (.lowerTo (min Config.depthMax (depth + Config.soundingMargin)) true) s'

/-- R124: Arrived is taken in the Traverse step. -/
def arrival (s : State) : Moved :=
  match s.stage.record.quality, s.stage.record.stage, s.run.current with
  | .none, _, _ => abortRun .stageLost s
  | _, some stage, some i =>
    match s.verticals[i]? with
    | some v => arriveWith i v stage s
    | none => going s
  | _, _, _ => going s

/-- R125: a sounding's Bottom contact in the water. -/
def bottomFound (depth : Int) (s : State) : Moved :=
  let table := takeSounding (s.run.current.getD 0) depth s
  let updated := table.2 == .updated
  let s' := table.1.updateEntry fun e =>
    { e with soundedDepth := some depth, depthUsed := some depth, bedUpdated := updated }
  let s' := s'.setRun { s'.run with flags := { s'.run.flags with bedChanged := s'.run.flags.bedChanged || updated } }
  if depth < s.setting .minimumDepth then stow (s'.updateEntry (Entry.markDry depth)) else placeNext s'

/-- R125: the end of a sounding. -/
def soundResult (how : LowerEnd) (s : State) : Moved :=
  match how with
  | .bottomContact depth true => bottomFound depth s
  | .bottomContact _ false => stowDry s
  | .reached =>
    placeNext (s.updateEntry fun e => { e with noBottom := true, depthUsed := some s.gauging.arrivalDepth })
  | .noSurface => stowDry s

/-- R126: the end of a surface lowering. -/
def surfaceResult (how : LowerEnd) (s : State) : Moved :=
  match how with
  | .reached => beginDwell true s
  | .bottomContact _ true => beginDwell true s
  | .bottomContact _ false => stowDry s
  | .noSurface => stowDry s

/-- R102, R125, R126: the end of a lowering: the choice of stop at Bottom that is handed back tells a sounding from a
surface lowering. -/
def lowerResult (how : LowerEnd) (stopAtBottom : Bool) (s : State) : Moved :=
  if stopAtBottom then soundResult how s else surfaceResult how s

/-- R118, R124 to R135: a movement's result taken by the Gauging Unit. -/
def takeResult (r : MoveResult) (s : State) : Moved :=
  match s.run.state, s.run.step, r with
  | .running, _, .inhibited => abortRun .inhibited s
  | .running, _, .faulted => going (faultedEnd s)
  | .running, _, .restarted => going (restartRun s)
  | .running, some .traverse, .arrived => arrival s
  | .running, _, .lowered how stop => lowerResult how stop s
  | .running, some .place, .reached => beginDwell false s
  | .running, some .stow, .atTop => finishVertical s
  | .returning, _, .faulted => going (faultedEnd s)
  | .returning, _, .restarted => going (restartRun s)
  | .returning, some .returnRaise, .atTop => ask .returnHome .goHome s
  | .returning, some .returnRaise, .reached => ask .returnRaise .raiseToTop s
  | .returning, some .returnRaise, .stopped => ask .returnRaise .raiseToTop s
  | .returning, some .returnRaise, .inhibited => ask .returnRaise .raiseToTop s
  | .returning, some .returnHome, .home => going (finishReturn s)
  | _, _, _ => going s

/-- A result taken, and each result that the movement it asks for ends with at once. The first argument bounds the
chain: three results a vertical, and the return. -/
def drain : Nat → MoveResult → State → State
  | 0, _, s => s
  | n + 1, r, s =>
    match (takeResult r s).result with
    | none => (takeResult r s).state
    | some r' => drain n r' (takeResult r s).state

/-- The longest chain of results that can come at one instant. -/
def chainLength (s : State) : Nat := 4 * s.gauging.visit.length + 8

/-- What the Cableway Controller leaves is handed to the Gauging Unit. -/
def deliver (m : Moved) : State :=
  match m.result with
  | none => m.state
  | some r => drain (chainLength m.state) r m.state

/-! ### Starting a run -/

/-- R123: the run becomes Running. Under CableInhibit it is aborted at the same instant without moving. -/
def startRunning (s : State) : State :=
  let s' := (s.setGauging { s.gauging with
    run := { s.run with state := .running, step := some .traverse, triggerMet := none, waitRemaining := none,
                        startTime := some s.clock, startStage := s.stage.record.stage },
    visit := s.measureIndices }).raise .runStarted
  match s.measureIndices with
  | [] => s'
  | i :: _ =>
    if s.inhibited then deliver (abortRun .inhibited (enterVertical i s'))
    else deliver (traverseToVertical i (enterVertical i s'))

/-- R121: an Armed run starts when its trigger is met, no inhibit is present and two Measure verticals are there. -/
def startIfReady (s : State) : State :=
  if s.run.state = .armed ∧ s.run.triggerMet = some true ∧ s.inhibited = false ∧ 2 ≤ s.measureIndices.length then
    startRunning s
  else s

/-- R121: whether a publication meets the trigger of an Armed run. -/
def State.triggerReached (s : State) : Bool :=
  match s.run.state, s.run.startCondition, s.stage.record.quality, s.stage.record.stage with
  | .armed, some (.atStage trigger _), .good, some stage => decide (trigger ≤ stage)
  | .armed, some (.atStage trigger _), .failover, some stage => decide (trigger ≤ stage)
  | _, _, _, _ => false

/-- R121: the Gauging Unit takes a stage publication. -/
def gaugingTakesPublication (s : State) : State :=
  startIfReady (if s.triggerReached then s.setRun { s.run with triggerMet := some true } else s)

/-- R134: the Gauging Unit takes the entry of CableInhibit, after the Cableway Controller has. -/
def inhibitRun (s : State) : State :=
  match s.run.state with
  | .running => deliver (abortRun .inhibited s)
  | _ => s

/-- R122: the wait timer of an Armed run reaches zero. -/
def waitExpiry (s : State) : State :=
  match s.run.state with
  | .armed => endRun { s.run.stampEnd s with state := .expired, endReason := some .expired } s
  | _ => s

/-! ### The dwell -/

/-- R115: a filtered pulse is counted during a dwell and at no other time. -/
def meterPulse (s : State) : State :=
  match s.gauging.dwell with
  | some d => s.setGauging { s.gauging with dwell := some { d with pulses := d.pulses + 1 } }
  | none => s

/-- R126: the scaled surface velocity. -/
def scaledVelocity (coefficient v : Int) : Int := roundHalfUp (v * coefficient) 1000

/-- R126 to R128: a point velocity is recorded and the run moves on. -/
def recordPoint (d : Dwell) (s : State) : Moved :=
  let v := pointVelocity s.gauging.meter d
  if d.surface then
    let w := scaledVelocity (s.setting .surfaceCoefficient) v
    stow (s.updateEntry fun e =>
      { e with points := [w], mean := some w, surfaceOnly := true, depthUsed := some s.gauging.arrivalDepth })
  else
    let s' := s.updateEntry fun e => { e with points := e.points ++ [v] }
    match s'.entry, s'.run.current.bind fun i => s'.verticals[i]? with
    | some e, some vertical =>
      if e.points.length < vertical.plan.fractions.length then placeNext s'
      else stow (s'.updateEntry fun e => { e with mean := meanVelocity e.points })
    | _, _ => stow s'

/-- R127: the dwell expires. -/
def dwellExpiry (s : State) : State :=
  match s.gauging.dwell with
  | some d => deliver (recordPoint d (s.setGauging { s.gauging with dwell := none }))
  | none => s

/-! ### Requests -/

/-- R187: the body of SET METER. -/
def MeterSettings.bytes (m : MeterSettings) : List Byte :=
  be1 m.pulsesPerRevolution ++ be2 m.offset ++ be2 m.slope ++ be1 m.minimumRevolutions

/-- R114: SET METER. -/
def setMeter (params : List Byte) (s : State) : Taken :=
  match readWords params with
  | some [] => done s s.gauging.meter.bytes
  | some [pulses, offset, slope, minimum] =>
    if ¬ within 1 8 pulses.toInt then badField s 0
    else if ¬ within 0 1000 offset.toInt then badField s 1
    else if ¬ within 1 5000 slope.toInt then badField s 2
    else if ¬ within 0 255 minimum.toInt then badField s 3
    else if s.run.state.locks then refused s .wrongState 0
    else
      let m : MeterSettings :=
        { pulsesPerRevolution := pulses.toInt, offset := offset.toInt, slope := slope.toInt,
          minimumRevolutions := minimum.toInt }
      done (s.setGauging { s.gauging with meter := m }) m.bytes
  | _ => badField s 0

/-- R120 checks 1 to 3: the start condition of the parameters, or the index of the first that fails. An Immediate
START RUN has one parameter, or three of which two are ignored (R186, LOG 13). -/
def startConditionOf (params : List Byte) : Except Nat StartCondition :=
  match readWords params with
  | some [condition] => if condition = 0 then .ok .immediate else .error 0
  | some [condition, trigger, wait] =>
    if condition = 0 then .ok .immediate
    else if condition ≠ 1 then .error 0
    else if ¬ within Config.stageMin Config.stageMax trigger.toInt then .error 1
    else if ¬ within 1 172800 wait.toInt then .error 2
    else .ok (.atStage trigger.toInt wait.toNat)
  | _ => .error 0

/-- R120: the next run id, wrapping from 65,535 to 1. -/
def idAfter (id : BitVec 16) : BitVec 16 := if id = 65535 then 1 else id + 1

/-- R120: the run record of a taken START RUN, before it becomes Running. -/
def armedRecord (s : State) (c : StartCondition) : RunRecord :=
  { RunRecord.none with
    id := some s.gauging.nextId, state := .armed, startCondition := some c,
    triggerMet := some false,
    waitRemaining := match c with
      | .immediate => none
      | .atStage _ wait => some wait }

/-- R120: the record replaced and the next id advanced; an Immediate run becomes Running at once. -/
def beginRun (c : StartCondition) (s : State) : State :=
  let s' := s.setGauging { s.gauging with run := armedRecord s c, nextId := idAfter s.gauging.nextId }
  match c with
  | .immediate => startRunning s'
  | .atStage _ _ => s'

/-- R120: START RUN. -/
def startRun (params : List Byte) (s : State) : Taken :=
  match startConditionOf params with
  | .error k => badField s k
  | .ok c =>
    if ¬ s.fitted then refused s .notFitted 0
    else match s.run.state with
      | .armed | .running | .returning => refused s .wrongState 0
      | _ =>
        if s.cable.state ≠ .parked then refused s .wrongState 0
        else if s.measureIndices.length < 2 then refused s .wrongState 0
        else accepted (beginRun c s) (be2 s.gauging.nextId.toNat)

/-- R132: ABORT RUN. Parameters are refused before the state is tested (LOG 33: the model's inference). -/
def abortRunRequest (params : List Byte) (s : State) : Taken :=
  match params with
  | [] =>
    match s.run.state with
    | .armed => done (endRun { s.run.stampEnd s with state := .aborted, endReason := some .cancelled } s) []
    | .running => done (deliver (abortRun .cancelled s)) []
    | _ => refused s .wrongState 0
  | _ => badField s 0

/-- R189: a present result entry, opened by its length byte. -/
def Entry.bytes (e : Entry) : List Byte :=
  be1 (22 + 2 * e.points.length : Nat) ++
  be1 (flagBits [e.arrivalStage.isSome, e.depthUsed.isSome, e.soundedDepth.isSome, e.mean.isSome,
    e.discharge.isSome]) ++
  be1 e.index ++ be1 (flagBits [e.dry, e.surfaceOnly, e.noBottom, e.bedUpdated, e.skipped]) ++ be4 e.distance ++
  be4 (orZero e.arrivalStage) ++ be2 (orZero e.depthUsed) ++ be2 (orZero e.soundedDepth) ++ be2 (orZero e.mean) ++
  be4 (orZero e.discharge) ++ be1 e.points.length ++ e.points.flatMap be2

/-- R188: the start condition field: code, trigger stage and wait limit. -/
def StartCondition.bytes : StartCondition → List Byte
  | .immediate => be1 0 ++ be4 0 ++ be4 0
  | .atStage trigger wait => be1 1 ++ be4 trigger ++ be4 wait

/-- R188: the presence field of the run record. -/
def RunRecord.presence (r : RunRecord) : Nat :=
  flagBits [r.id.isSome, r.step.isSome, r.current.isSome, r.startCondition.isSome, r.triggerMet.isSome,
    r.startTime.isSome, r.startStage.isSome, r.endTime.isSome, r.endStage.isSome, r.endReason.isSome,
    r.fault.isSome, r.totals.isSome, (r.totals.bind fun t => t.rated).isSome,
    (r.totals.bind fun t => t.ratio).isSome, (r.totals.bind fun t => t.proposed).isSome]

/-- R188: the fixed block of 56 bytes. A ratio beyond its 4 bytes is sent modulo 2^32 (LOG 32: the model's choice). -/
def RunRecord.bytes (r : RunRecord) : List Byte :=
  be2 ((r.id.getD 0).toNat) ++ be1 r.state.code ++ be1 (orZero (r.step.map Step.code)) ++
  be1 (r.current.getD 0 : Nat) ++ (r.startCondition.getD .immediate).bytes ++
  be1 ((r.triggerMet.getD false).toNat) ++ be4 (r.waitRemaining.getD 0 : Nat) ++
  beWord (r.startTime.getD 0) ++ be4 (orZero r.startStage) ++ beWord (r.endTime.getD 0) ++ be4 (orZero r.endStage) ++
  be1 (orZero (r.endReason.map EndReason.code)) ++ be1 (orZero (r.fault.map RunFault.code)) ++
  be1 (flagBits [r.flags.unsteady, r.flags.surfaceUsed, r.flags.bedChanged]) ++
  be4 (orZero (r.totals.map fun t => t.measured)) ++ be4 (orZero (r.totals.bind fun t => t.rated)) ++
  be1 (orZero (r.totals.map fun t => t.flag.code)) ++ be4 (orZero (r.totals.bind fun t => t.ratio)) ++
  be2 (orZero (r.totals.bind fun t => t.proposed)) ++ be2 r.presence ++ be1 r.results.length

/-- R137: READ RUN. Where both values are out of range the first is reported (LOG 31: the model's choice). -/
def readRun (params : List Byte) (s : State) : Taken :=
  match readWords params with
  | some [first, number] =>
    match slotOf 32 first, slotOf 5 number with
    | none, _ => badField s 0
    | some _, none => badField s 1
    | some f, some n =>
      done s (s.run.bytes ++ be1 f ++ (List.range n).flatMap fun k =>
        match s.run.results[f + k]? with
        | some e => e.bytes
        | none => be1 0)
  | _ => badField s 0

/-- R139: the run accepted with its proposed shift. -/
def RunRecord.accept (proposal : Int) (r : RunRecord) : RunRecord :=
  { r with state := .accepted, totals := r.totals.map fun t => { t with proposed := some proposal } }

/-- R139: the proposal handed to the Rating Store. -/
def acceptProposal (mean proposal : Int) (s : State) : Taken :=
  match acceptShift s (s.run.id.getD 0) mean proposal with
  | .error why => refused s why 0
  | .ok p =>
    done (p.state.setRun (s.run.accept proposal))
      (be2 proposal ++ be1 p.slot ++ be4 p.lower ++ be4 p.upper ++ be1 p.placedNew.toNat)

/-- R138, R139: ACCEPT GAUGING. -/
def acceptGauging (params : List Byte) (s : State) : Taken :=
  match readWords params with
  | some [force] =>
    match flagOf force with
    | none => badField s 0
    | some force =>
      match s.run.state, s.run.totals, s.run.startStage, s.run.endStage with
      | .complete, some t, some a, some b =>
        if s.run.flags.unsteady ∧ force = false then refused s .unsteady 0
        else if s.rating.adoption.request.isSome then refused s .adoptionPending 0
        else match inverseLookup s.rating.active.points t.measured with
          | none => refused s .outOfLimits 0
          | some stage => acceptProposal (meanStage a b) (stage - meanStage a b) s
      | _, _, _, _ => refused s .wrongState 0
  | _ => badField s 0

/-- R83, R121: RETIRE VERTICAL, which an Armed run tests. -/
def retireVertical (params : List Byte) (s : State) : Taken :=
  match readWords params with
  | some [index] =>
    match slotOf Config.verticals index with
    | none => badField s 0
    | some k =>
      if s.sectionLocked then refused s .locked 0
      else if s.verticals.length ≤ k then refused s .notFound 0
      else done (startIfReady (s.setVerticals (s.verticals.eraseIdx k))) (be1 (s.verticals.eraseIdx k).length)
  | _ => badField s 0

/-! ### Line and timer events that may end a movement, and meanings -/

/-- METER_PULSE (R115). -/
def execMeterPulse (s : State) : Host.Outcome State Fault Refusal :=
  unlessHeld meterPulse s

/-- DWELL_EXPIRY (R127). -/
def execDwellExpiry (s : State) : Host.Outcome State Fault Refusal :=
  unlessHeld dwellExpiry s

/-- WAIT_EXPIRY (R122). -/
def execWaitExpiry (s : State) : Host.Outcome State Fault Refusal :=
  unlessHeld waitExpiry s

/-- DRIVE_PERIOD_BOUNDARY (R93). -/
def execDrivePeriodBoundary (s : State) : Host.Outcome State Fault Refusal :=
  unlessHeld (deliver ∘ drivePeriodBoundary) s

/-- TRAVERSE_COUNT_CHANGE (R95). -/
def execTraverseCountChange (e : QuadratureEdge) (s : State) : Host.Outcome State Fault Refusal :=
  unlessHeld (deliver ∘ traverseCountChange e) s

/-- DEPTH_COUNT_CHANGE (R96). -/
def execDepthCountChange (e : QuadratureEdge) (s : State) : Host.Outcome State Fault Refusal :=
  unlessHeld (deliver ∘ depthCountChange e) s

/-- CONTACT_CHANGE (R97). -/
def execContactChange (c : Contact) (v : Level) (s : State) : Host.Outcome State Fault Refusal :=
  unlessHeld (deliver ∘ contactChange c v) s

/-- JAM (R107). -/
def execJam (d : DriveName) (s : State) : Host.Outcome State Fault Refusal :=
  unlessHeld (deliver ∘ jamExpiry d) s

/-- SET_METER (R114). -/
def execSetMeter (params : List Byte) (s : State) : Host.Outcome State Fault Refusal :=
  onSelectPeriod (takeRequest RequestName.setMeter.code params setMeter) s

/-- START_RUN (R120). -/
def execStartRun (params : List Byte) (s : State) : Host.Outcome State Fault Refusal :=
  onSelectPeriod (takeRequest RequestName.startRun.code params startRun) s

/-- ABORT_RUN (R132). -/
def execAbortRun (params : List Byte) (s : State) : Host.Outcome State Fault Refusal :=
  onSelectPeriod (takeRequest RequestName.abortRun.code params abortRunRequest) s

/-- READ_RUN (R137). -/
def execReadRun (params : List Byte) (s : State) : Host.Outcome State Fault Refusal :=
  onSelectPeriod (takeRequest RequestName.readRun.code params readRun) s

/-- ACCEPT_GAUGING (R138). -/
def execAcceptGauging (params : List Byte) (s : State) : Host.Outcome State Fault Refusal :=
  onSelectPeriod (takeRequest RequestName.acceptGauging.code params acceptGauging) s

/-- RETIRE_VERTICAL (R83). -/
def execRetireVertical (params : List Byte) (s : State) : Host.Outcome State Fault Refusal :=
  onSelectPeriod (takeRequest RequestName.retireVertical.code params retireVertical) s

end Sys2Proof.Machine
end

