-- ==== Sys2Proof/Machine/Levels.lean ====
section
/-! DEFINITION. Level channels (chapter 1): readings, conditions, their line and timer events, and the three
channel requests. -/

namespace Sys2Proof.Machine

/-! ### Channel records -/

/-- The record of a channel. -/
def State.channel (s : State) (i : ChannelNumber) : Channel := s.channels.get i

/-- R12: a channel record replaced; a change of its condition raises ChannelChanged. -/
def State.putChannel (s : State) (i : ChannelNumber) (c : Channel) : State :=
  (s.setChannels (s.channels.set i.val c i.isLt)).raiseIf (c.condition != (s.channel i).condition) .channelChanged

/-- R3: the count term of an encoder, mm. -/
def Channel.encoderTerm (c : Channel) : Int := roundHalfUp (c.count.toInt * c.scale) 1000

/-- R8: the count term of a gate total, mm. -/
def Channel.gateTerm (c : Channel) (total : Nat) : Int := roundHalfUp (total * c.scale) 1000

/-- R3: a value kept within the limits of a reading. -/
def holdReading (v : Int) : Int := clampTo (-Config.readingMax) Config.readingMax v

/-- R3: the value of an encoder channel. -/
def Channel.encoderValue (c : Channel) : Int := holdReading (c.offset + c.encoderTerm)

/-- R8: the value of a gate. -/
def Channel.gateValue (c : Channel) (total : Nat) : Int := holdReading (c.offset + c.gateTerm total)

/-- R11: Valid within the stage floor and ceiling, both included, else OutOfRange. -/
def State.judge (s : State) (v : Int) : Condition :=
  if within (s.setting .stageFloor) (s.setting .stageCeiling) v then .valid else .outOfRange

/-- R1, R11: a value taken as the reading, stamped, and the condition tested. -/
def Channel.takeReading (s : State) (c : Channel) (v : Int) : Channel :=
  { c with reading := some v, readingTime := s.clock, condition := s.judge v }

/-- Whether a channel shows a reading that follows its count (R3). -/
def Channel.showsReading (c : Channel) : Bool := c.condition == .valid || c.condition == .outOfRange

/-- R3, R5, R11: an encoder channel after its count changed. -/
def Channel.followCount (s : State) (c : Channel) : Channel :=
  if c.showsReading then c.takeReading s c.encoderValue else c

/-- R9: whether the last completed gate was saturated. -/
def Channel.saturated (c : Channel) : Bool :=
  c.kind == .frequency && c.lastGate == some Config.gatePulsesMax

/-- R11: the condition tested again when the floor or ceiling is written; a saturated reading stays OutOfRange. -/
def Channel.retest (s : State) (c : Channel) : Channel :=
  match c.reading with
  | some v => if c.showsReading && !c.saturated then { c with condition := s.judge v } else c
  | none => c

/-- R11, R12: every channel with a reading tested against the limits in force. -/
def retestChannels (s : State) : State :=
  let after := Vector.ofFn fun i => (s.channel i).retest s
  (s.setChannels after).raiseIf
    ((List.finRange Config.channels).any fun i => (after.get i).condition != (s.channel i).condition) .channelChanged

/-! ### Float encoders -/

/-- R2: a level change on a quadrature line of an encoder channel moves its count; of any other kind it does
nothing. -/
def quadratureChange (i : ChannelNumber) (e : QuadratureEdge) (s : State) : State :=
  let c := s.channel i
  if c.kind = .encoder ∧ quadratureStep e ≠ 0 then
    s.putChannel i (Channel.followCount s { c with count := stepCount c.count (quadratureStep e) })
  else s

/-- R4: whether a taken edge matches the mark edge setting. -/
def MarkEdge.matchesEdge : MarkEdge → Edge → Bool
  | .rising, .rising => true
  | .falling, .falling => true
  | .both, _ => true
  | _, _ => false

/-- R5: the count the mark loads. -/
def Channel.markCount (c : Channel) (m : Mark) : Word :=
  BitVec.ofInt 32 (roundHalfUp ((m.stage - c.offset) * 1000) c.scale)

/-- The level a line is at after an edge. -/
def levelAfter : Edge → Level
  | .rising => .high
  | .falling => .low

/-- R5: the mark reload, with the correction worked from the value before the load. -/
def Channel.markReload (s : State) (c : Channel) (m : Mark) : Channel :=
  Channel.followCount s
    { c with count := c.markCount m, lastMark := some { mm := m.stage - c.encoderValue, time := s.clock } }

/-- R4, R5: a filtered change of the mark line. It is ignored, but for the level the line is then at (LOG 6), unless the
channel is an encoder with a mark; an edge that does not match the mark edge setting is taken and then ignored. -/
def markEdge (i : ChannelNumber) (e : Edge) (s : State) : State :=
  let c := { s.channel i with markLine := levelAfter e }
  match c.kind, c.mark with
  | .encoder, some m =>
    let c' := { c with markLevel := some (levelAfter e) }
    if m.edge.matchesEdge e ∧ c.condition ≠ .off then s.putChannel i (c'.markReload s m) else s.putChannel i c'
  | _, _ => s.putChannel i c

/-- R10: the settling timer of an encoder channel runs out. -/
def settlingTimerExpiry (i : ChannelNumber) (s : State) : State :=
  let c := s.channel i
  match c.settlingTimer with
  | some _ => s.putChannel i (Channel.takeReading s { c with settlingTimer := none } c.encoderValue)
  | none => s

/-! ### Frequency transducers -/

/-- R7: a rising edge on the pulse line adds one to the gate's count, which stops at 1,000,000. -/
def frequencyPulse (i : ChannelNumber) (s : State) : State :=
  let c := s.channel i
  match c.kind, c.gate with
  | .frequency, some g =>
    s.putChannel i { c with gate := some { g with pulses := countUp Config.gatePulsesMax g.pulses } }
  | _, _ => s

/-- R8, R9: a gate's value becomes the reading; a saturated gate makes the channel OutOfRange. -/
def Channel.takeGate (s : State) (c : Channel) (total : Nat) : Channel :=
  let c' := c.takeReading s (c.gateValue total)
  if total = Config.gatePulsesMax then { c' with condition := .outOfRange } else c'

/-- R8: the table of a gate completion, for a channel that holds the new last gate total and a new gate. The count
of a channel that goes Silent from a reading is kept (LOG 11). -/
def Channel.actOnGate (s : State) (c : Channel) (total : Nat) : Channel :=
  if (total : Int) < s.setting .minimumPulses then
    match c.condition with
    | .settling => { c with condition := .silent, settlingCount := 0 }
    | .valid | .outOfRange => { c with condition := .silent, reading := none, readingTime := s.clock }
    | .silent | .off => c
  else
    match c.condition with
    | .settling =>
      if c.settlingCount = 0 then { c with settlingCount := 1 }
      else Channel.takeGate s { c with settlingCount := 2 } total
    | .valid | .outOfRange => c.takeGate s total
    | .silent => { c with condition := .settling, settlingCount := 1 }
    | .off => c

/-- R7, R8: the gate of a frequency channel completes and the next one starts. -/
def gateCompletion (i : ChannelNumber) (s : State) : State :=
  let c := s.channel i
  match c.kind, c.gate with
  | .frequency, some g =>
    s.putChannel i
      (Channel.actOnGate s { c with lastGate := some g.pulses, gate := some { elapsed := 0, pulses := 0 } } g.pulses)
  | _, _ => s

/-! ### Requests -/

/-- R14: the first parameter of CONFIGURE CHANNEL that fails, for a known kind that is not Off. -/
def configureCheck (kind : ChannelKind) (scale offset markStage edge : Word) : Option Nat :=
  if ¬ within 1 (if kind = .encoder then 10000 else 100000) scale.toInt then some 2
  else if ¬ within (-Config.readingMax) Config.readingMax offset.toInt then some 3
  else if edge ≠ 0 ∧ ¬ within Config.stageMin Config.stageMax markStage.toInt then some 4
  else match MarkEdge.ofCode edge with
    | none => some 5
    | some none => none
    | some (some _) => if kind = .frequency then some 5 else none

/-- R15: what every CONFIGURE CHANNEL does to the channel's working state. That the settling count of a channel set to
Encoder is 0 too is read from R8 (LOG 34). The mark filter starts from the level its line holds at that moment (R19,
R190). -/
def Channel.afresh (s : State) (c : Channel) : Channel :=
  { c with count := 0, gate := none, lastGate := none, settlingCount := 0, settlingTimer := none, reading := none,
           readingTime := s.clock, lastMark := none, markLevel := some c.markLine }

/-- R15: a channel configured Off; scale and offset stay. -/
def Channel.configuredOff (s : State) (c : Channel) : Channel :=
  { c.afresh s with kind := .off, mark := none, condition := .off }

/-- R15: a channel configured as an encoder. -/
def Channel.configuredEncoder (s : State) (c : Channel) (scale offset : Int) (mark : Option Mark) : Channel :=
  { c.afresh s with kind := .encoder, scale := scale, offset := offset, mark := mark, condition := .settling,
                    settlingTimer := some 0 }

/-- R15: a channel configured as a frequency transducer. -/
def Channel.configuredFrequency (s : State) (c : Channel) (scale offset : Int) : Channel :=
  { c.afresh s with kind := .frequency, scale := scale, offset := offset, mark := none, condition := .settling,
                    gate := some { elapsed := 0, pulses := 0 } }

/-- R14: the mark a CONFIGURE CHANNEL fits. -/
def markOf (markStage edge : Word) : Option Mark :=
  match MarkEdge.ofCode edge with
  | some (some e) => some { stage := markStage.toInt, edge := e }
  | _ => none

/-- R14, R15: CONFIGURE CHANNEL. -/
def configureChannel (params : List Byte) (s : State) : Taken :=
  match readWords params with
  | some [ch, kind, scale, offset, markStage, edge] =>
    match channelOf ch with
    | none => badField s 0
    | some i =>
      match ChannelKind.ofCode kind with
      | none => badField s 1
      | some .off => done (s.putChannel i ((s.channel i).configuredOff s)) []
      | some .encoder =>
        match configureCheck .encoder scale offset markStage edge with
        | some k => badField s k
        | none =>
          done (s.putChannel i
            ((s.channel i).configuredEncoder s scale.toInt offset.toInt (markOf markStage edge))) []
      | some .frequency =>
        match configureCheck .frequency scale offset markStage edge with
        | some k => badField s k
        | none => done (s.putChannel i ((s.channel i).configuredFrequency s scale.toInt offset.toInt)) []
  | _ => badField s 0

/-- R16: the count term the current reading is built from. -/
def Channel.currentTerm (c : Channel) : Int :=
  match c.kind with
  | .frequency => c.gateTerm (c.lastGate.getD 0)
  | _ => c.encoderTerm

/-- R16: a channel after a taken SET CHANNEL STAGE with the new offset. -/
def Channel.corrected (s : State) (c : Channel) (offset : Int) : Channel :=
  { c with offset := offset, condition := .settling, reading := none, readingTime := s.clock,
           settlingTimer := if c.kind = .encoder then some 0 else none,
           settlingCount := if c.kind = .frequency then 0 else c.settlingCount }

/-- R16: SET CHANNEL STAGE. -/
def setChannelStage (params : List Byte) (s : State) : Taken :=
  match readWords params with
  | some [ch, stage] =>
    match channelOf ch with
    | none => badField s 0
    | some i =>
      let c := s.channel i
      let offset := stage.toInt - c.currentTerm
      if ¬ within Config.stageMin Config.stageMax stage.toInt then badField s 1
      else if c.condition ≠ .valid then refused s .wrongState 0
      else if ¬ within (s.setting .stageFloor) (s.setting .stageCeiling) stage.toInt
          ∨ ¬ within (-Config.readingMax) Config.readingMax offset then refused s .outOfLimits 0
      else done (s.putChannel i (c.corrected s offset)) (be4 c.offset ++ be4 offset)
  | _ => badField s 0

/-- The count field of READ CHANNEL (R17): the count of an encoder, the last gate total of a frequency channel, 0 for
Off. -/
def Channel.reportedCount (c : Channel) : Int :=
  match c.kind with
  | .off => 0
  | .encoder => c.count.toInt
  | .frequency => (c.lastGate.getD 0 : Nat)

/-- 11.4: the 38-byte record of READ CHANNEL. -/
def Channel.bytes (i : ChannelNumber) (c : Channel) : List Byte :=
  be1 i.val ++ be1 c.kind.code ++ be4 c.scale ++ be4 c.offset ++
  be1 ((c.mark.map fun m => m.edge.code).getD 0) ++ be4 ((c.mark.map fun m => m.stage).getD 0) ++
  be1 c.condition.code ++ be1 (flagBits [c.reading.isSome, c.lastMark.isSome, c.lastGate.isSome]) ++
  be4 (orZero c.reading) ++ beWord c.readingTime ++
  be4 ((c.lastMark.map fun m => m.mm).getD 0) ++ beWord ((c.lastMark.map fun m => m.time).getD 0) ++
  be4 c.reportedCount ++ be1 c.settlingCount

/-- R17: READ CHANNEL. -/
def readChannel (params : List Byte) (s : State) : Taken :=
  match readWords params with
  | some [ch] =>
    match channelOf ch with
    | none => badField s 0
    | some i => done s ((s.channel i).bytes i)
  | _ => badField s 0

/-! ### Meanings -/

/-- QUADRATURE_CHANGE (R2). -/
def execQuadratureChange (i : ChannelNumber) (e : QuadratureEdge) (s : State) : Host.Outcome State Fault Refusal :=
  unlessHeld (quadratureChange i e) s

/-- MARK_EDGE (R5). -/
def execMarkEdge (i : ChannelNumber) (e : Edge) (s : State) : Host.Outcome State Fault Refusal :=
  unlessHeld (markEdge i e) s

/-- FREQUENCY_PULSE (R7). -/
def execFrequencyPulse (i : ChannelNumber) (s : State) : Host.Outcome State Fault Refusal :=
  unlessHeld (frequencyPulse i) s

/-- GATE_COMPLETION (R8). -/
def execGateCompletion (i : ChannelNumber) (s : State) : Host.Outcome State Fault Refusal :=
  unlessHeld (gateCompletion i) s

/-- SETTLING_TIMER_EXPIRY (R10). -/
def execSettlingTimerExpiry (i : ChannelNumber) (s : State) : Host.Outcome State Fault Refusal :=
  unlessHeld (settlingTimerExpiry i) s

/-- CONFIGURE_CHANNEL (R15). -/
def execConfigureChannel (params : List Byte) (s : State) : Host.Outcome State Fault Refusal :=
  onSelectPeriod (takeRequest RequestName.configureChannel.code params configureChannel) s

/-- SET_CHANNEL_STAGE (R16). -/
def execSetChannelStage (params : List Byte) (s : State) : Host.Outcome State Fault Refusal :=
  onSelectPeriod (takeRequest RequestName.setChannelStage.code params setChannelStage) s

/-- READ_CHANNEL (R17). -/
def execReadChannel (params : List Byte) (s : State) : Host.Outcome State Fault Refusal :=
  onSelectPeriod (takeRequest RequestName.readChannel.code params readChannel) s

end Sys2Proof.Machine
end

