-- ==== Sys2Proof/Machine/SettingRequests.lean ====
section
/-! DEFINITION. WRITE SETTINGS and READ SETTINGS (R179 to R181), with what a written setting does at once (R180). -/

namespace Sys2Proof.Machine

/-! ### The checks of WRITE SETTINGS (R179) -/

/-- The parameters as pairs of identifier and value; none when the number is odd. -/
def pairsOf : List Word → Option (List (Int × Int))
  | [] => some []
  | [_] => none
  | i :: v :: rest => (pairsOf rest).map ((i.toInt, v.toInt) :: ·)

/-- R179 check 1: a whole number of 1 to 8 pairs. -/
def settingPairs (params : List Byte) : Option (List (Int × Int)) :=
  match (readWords params).bind pairsOf with
  | none => none
  | some ps => if 1 ≤ ps.length ∧ ps.length ≤ 8 then some ps else none

/-- The position, from a first number on, of the first pair that fails a test. -/
def firstFailing {α : Type} (bad : α → Bool) (index : Nat) : List α → Option Nat
  | [] => none
  | p :: ps => if bad p then some index else firstFailing bad (index + 1) ps

/-- R179 check 3: the position of the first pair whose identifier an earlier pair wrote. -/
def firstRepeat (earlier : List Int) (index : Nat) : List (Int × Int) → Option Nat
  | [] => none
  | p :: ps => if earlier.contains p.1 then some index else firstRepeat (p.1 :: earlier) (index + 1) ps

/-- The settings after the pairs. -/
def applyPairs (t : Settings) : List (Int × Int) → Settings
  | [] => t
  | p :: ps =>
    match Setting.ofId p.1 with
    | some x => applyPairs (t.write x p.2) ps
    | none => applyPairs t ps

/-- The pair that writes a setting. -/
def pairOf (x : Setting) (ps : List (Int × Int)) : Option Nat := ps.findIdx? fun p => decide (p.1 = (x.id : Int))

/-- R179 checks 5 to 8: the pair of the first setting if written, else of the second. -/
def eitherPair (x y : Setting) (ps : List (Int × Int)) : Nat := ((pairOf x ps).or (pairOf y ps)).getD 0

/-- R80: every vertical lies within a span. -/
def insideSpan (first last : Int) (vs : List Vertical) : Bool := vs.all fun v => within first last v.distance

/-- R75: the shift limit is no less than the target and applied shift of every band in use. -/
def limitHolds (limit : Int) (t : ShiftTable) : Bool :=
  t.inUse.all fun p => within (-limit) limit p.2.target && within (-limit) limit p.2.applied

/-- R179 check 11: whether the carriage lets the counts per metre and the home offset change. -/
def CarriageState.letsScalesChange : CarriageState → Bool
  | .unhomed | .parked | .halted => true
  | .homing | .traversing | .lowering | .holding | .raising => false

/-- R179 checks 2 to 4, on the pairs alone. Of several pairs that fail one check the first is reported (LOG 31: the
model's choice). -/
def checkPairs (ps : List (Int × Int)) : Option Nat :=
  ((firstFailing (fun p => (Setting.ofId p.1).isNone) 0 ps).or (firstRepeat [] 0 ps)).or
    (firstFailing (fun p => ((Setting.ofId p.1).map fun x => !x.admits p.2).getD false) 0 ps)

/-- R179 checks 5 to 11, on the settings as they would stand: the reason and detail of the first that fails. -/
def checkSettings (s : State) (ps : List (Int × Int)) (t : Settings) : Option (Reject × Nat) :=
  if t.read .stageCeiling ≤ t.read .stageFloor then some (.badField, eitherPair .stageCeiling .stageFloor ps)
  else if t.read .quietCadence < t.read .floodCadence then some (.badField, eitherPair .floodCadence .quietCadence ps)
  else if t.read .spanEnd ≤ t.read .spanStart then some (.badField, eitherPair .spanEnd .spanStart ps)
  else if t.read .traverseFastDuty < t.read .traverseSlowDuty then
    some (.badField, eitherPair .traverseSlowDuty .traverseFastDuty ps)
  else if ¬ insideSpan (t.read .spanStart) (t.read .spanEnd) s.verticals then some (.outOfLimits, 0)
  else if ¬ limitHolds (t.read .shiftLimit) s.rating.bands then some (.outOfLimits, 0)
  else if ¬ s.cable.state.letsScalesChange ∧
      (t.read .traverseCountsPerMetre ≠ s.setting .traverseCountsPerMetre ∨
        t.read .hoistCountsPerMetre ≠ s.setting .hoistCountsPerMetre ∨ t.read .homeOffset ≠ s.setting .homeOffset) then
    some (.wrongState, 0)
  else none

/-! ### What written settings do at once (R180) -/

/-- Whether one of some settings differs between two stores. -/
def settingsDiffer (xs : List Setting) (t t' : Settings) : Bool := xs.any fun x => t.read x != t'.read x

/-- An action made when one of some settings has changed. -/
def whenChanged (xs : List Setting) (t t' : Settings) (act : State → State) (s : State) : State :=
  if settingsDiffer xs t t' then act s else s

/-- Actions made one after the other. -/
def inTurn : List (State → State) → State → State
  | [], s => s
  | f :: fs, s => inTurn fs (f s)

/-- R97, R107, R108, R109: the tests a write brings about in the cableway may be taken in any order (LOG 10, LOG 16). -/
def retestCable (before : Settings) (s : State) : State :=
  let jam := whenChanged [.jamTimeout] before s.settings fun t => deliver (jamTest t)
  let snag := whenChanged [.snagLevel] before s.settings fun t => deliver (snagTest t)
  let contacts := whenChanged [.homeLevel, .topLevel, .surfaceLevel, .bottomLevel, .surfaceSearchLimit] before
    s.settings fun t => deliver (contactTests t)
  let s' := s.setFreeReads (s.freeReads + 1)
  chooseOutcome s.freeReads (inTurn [jam, snag, contacts] s')
    [inTurn [jam, contacts, snag] s', inTurn [snag, jam, contacts] s', inTurn [snag, contacts, jam] s',
     inTurn [contacts, jam, snag] s', inTurn [contacts, snag, jam] s']

/-- R180: the settings applied at one instant, with what acts at once. -/
def applySettings (t : Settings) (s : State) : State :=
  retestCable s.settings
    (whenChanged [.stageFloor, .stageCeiling] s.settings t retestChannels (s.setSettings t))

/-! ### The requests -/

/-- A pair of identifier and value in an answer. -/
def pairBytes (id value : Int) : List Byte := be1 id ++ be4 value

/-- R179, R180: WRITE SETTINGS. -/
def writeSettings (params : List Byte) (s : State) : Taken :=
  match settingPairs params with
  | none => badField s 0
  | some ps =>
    match checkPairs ps with
    | some k => badField s k
    | none =>
      match checkSettings s ps (applyPairs s.settings ps) with
      | some e => refused s e.1 e.2
      | none => done (applySettings (applyPairs s.settings ps) s) (ps.flatMap fun p => pairBytes p.1 p.2)

/-- R181: the pairs of READ SETTINGS for the settings asked for. -/
def settingBytes (t : Settings) (xs : List Setting) : List Byte := xs.flatMap fun x => pairBytes x.id (t.read x)

/-- R181: READ SETTINGS. Of several bad identifiers the first is reported (LOG 31: the model's choice). -/
def readSettings (params : List Byte) (s : State) : Taken :=
  match readWords params with
  | some [] => done s (settingBytes s.settings Setting.all)
  | some ids =>
    if 16 < ids.length then badField s 0
    else match firstFailing (fun w => (Setting.ofId w.toInt).isNone) 0 ids with
      | some k => badField s k
      | none => done s (settingBytes s.settings (ids.filterMap fun w => Setting.ofId w.toInt))
  | none => badField s 0

/-! ### Meanings -/

/-- WRITE_SETTINGS (R179). -/
def execWriteSettings (params : List Byte) (s : State) : Host.Outcome State Fault Refusal :=
  onSelectPeriod (takeRequest RequestName.writeSettings.code params writeSettings) s

/-- READ_SETTINGS (R181). -/
def execReadSettings (params : List Byte) (s : State) : Host.Outcome State Fault Refusal :=
  onSelectPeriod (takeRequest RequestName.readSettings.code params readSettings) s

end Sys2Proof.Machine
end

