-- ==== Sys2Proof/Machine/Warnings.lean ====
section
/-! DEFINITION. The Warning Unit (chapters 8 and 9): the rule records and their requests, the evaluation at a
publication, the effect set with its siren, beacon and remote line, and the take-up of CableInhibit. -/

namespace Sys2Proof.Machine

/-! ### Rules in their slots -/

/-- The rule in a slot. -/
def RuleTable.rule (t : RuleTable) (slot : Nat) : Option Rule := (t[slot]?).join

/-- The table with one slot replaced. -/
def RuleTable.put (t : RuleTable) (slot : Nat) (r : Option Rule) : RuleTable := t.setIfInBounds slot r

/-- The slots of the rule table in order. -/
def RuleTable.slots (t : RuleTable) : List (Nat × Option Rule) :=
  (List.finRange Config.rules).map fun i => (i.val, t.get i)

/-- The rule table replaced, the effect set kept. -/
def State.setRules (s : State) (t : RuleTable) : State := s.setWarning { s.warning with rules := t }

/-- R141: whether a rule is contributing. -/
def Rule.contributing (r : Rule) : Bool :=
  r.state == .tripped || r.state == .acknowledged || r.state == .latched

/-! ### The effect set (R158) -/

/-- R158: a rule that is Tripped or Latched gives its siren pattern. -/
def Rule.givesSiren (p : Siren) (r : Rule) : Bool := (r.state == .tripped || r.state == .latched) && r.siren == p

/-- R158: a rule that is Tripped or Acknowledged gives the effects its flags name. -/
def Rule.givesFlag (flag : EffectFlags → Bool) (r : Rule) : Bool :=
  (r.state == .tripped || r.state == .acknowledged) && flag r.flags

/-- The slots, ascending, of the rules that give an item. -/
def RuleTable.contributors (t : RuleTable) (gives : Rule → Bool) : List Nat :=
  (t.slots.filter fun p => (p.2.map gives).getD false).map fun p => p.1

/-- R158: the effect set of sixteen rules. -/
def formEffectSet (t : RuleTable) : EffectSet :=
  { pattern1 := t.contributors (Rule.givesSiren .p1),
    pattern2 := t.contributors (Rule.givesSiren .p2),
    pattern3 := t.contributors (Rule.givesSiren .p3),
    floodCadence := t.contributors (Rule.givesFlag EffectFlags.floodCadence),
    cableInhibit := t.contributors (Rule.givesFlag EffectFlags.cableInhibit),
    surfaceOnly := t.contributors (Rule.givesFlag EffectFlags.surfaceOnly),
    remoteLine := t.contributors (Rule.givesFlag EffectFlags.remoteLine) }

/-- R141: the station warning level of sixteen rules. -/
def warningLevel (t : RuleTable) : Nat :=
  ((t.slots.filterMap fun p => p.2).filter Rule.contributing).foldr (fun r n => max r.level n) 0

/-- R160: the highest pattern present. -/
def winningPattern (e : EffectSet) : Siren :=
  if ¬ e.pattern3.isEmpty then .p3 else if ¬ e.pattern2.isEmpty then .p2
  else if ¬ e.pattern1.isEmpty then .p1 else .none

/-- R161: the phase at the start of a pattern; Off for none. -/
def firstPhase : Siren → Phase
  | .none => .off
  | .p1 | .p2 | .p3 => .on

/-- R158 to R163: everything formed again from the states of the rules. The pattern is started afresh only when the
winning pattern changes. The time in the phase of a stopped generator is 0 (LOG 23: the model's choice). -/
def WarningUnit.form (w : WarningUnit) : WarningUnit :=
  let e := formEffectSet w.rules
  let winning := winningPattern e
  { w with
    effects := e, level := warningLevel w.rules, winning := winning,
    phase := if winning = w.winning then w.phase else firstPhase winning,
    phaseElapsed := if winning = w.winning then w.phaseElapsed else 0,
    beacon := w.rules.toList.any fun r => (r.map Rule.contributing).getD false,
    remote := !e.remoteLine.isEmpty }

/-- R165: CableInhibit entered: the Cableway Controller and the Gauging Unit take it up, as one cause for the run. -/
def inhibitEnters (s : State) : State := inhibitRun (deliver (inhibitCable s))

/-- R159, R164, R165, R167: the set formed again in one step, and the entry or leaving of CableInhibit taken up. -/
def formEffects (s : State) : State :=
  let s' := s.setWarning s.warning.form
  if s.inhibited = false ∧ s'.inhibited = true then inhibitEnters s'
  else if s.inhibited = true ∧ s'.inhibited = false then startIfReady s'
  else s'

/-! ### Evaluation (R148 to R151) -/

/-- R149: the value of a rule at an evaluation, from the record and the one lookup; absent when unavailable. -/
def Rule.value (rec : StageRecord) (discharge : Option Int) (r : Rule) : Option Int :=
  match rec.quality with
  | .none => none
  | .good | .failover | .held =>
    match r.quantity with
    | .stage => rec.stage
    | .rate => some rec.rate
    | .discharge => discharge

/-- R150: an Armed or Latched rule counts toward a trip, and trips. -/
def Rule.countTrip (time : Word) (v : Int) (r : Rule) : Rule :=
  if v < r.trip then { r with tripCount := 0 }
  else if r.tripCount + 1 < r.tripPersistence then { r with tripCount := r.tripCount + 1 }
  else { r with state := .tripped, tripTime := some time, peak := some v, clearTime := none, tripCount := 0,
                clearCount := 0 }

/-- R151: the greater of the peak and the value. -/
def Rule.peakWith (v : Int) (r : Rule) : Int := max v (r.peak.getD v)

/-- R151: the state a clear leads to. -/
def Rule.clearedState (r : Rule) : RuleState :=
  match r.state with
  | .tripped => if r.acknowledgeRequired then .latched else .armed
  | _ => .armed

/-- R151: a Tripped or Acknowledged rule keeps its peak, counts toward a clear, and clears. -/
def Rule.countClear (time : Word) (v : Int) (r : Rule) : Rule :=
  if r.clear < v then { r with peak := some (r.peakWith v), clearCount := 0 }
  else if r.clearCount + 1 < r.clearPersistence then
    { r with peak := some (r.peakWith v), clearCount := r.clearCount + 1 }
  else { r with peak := some (r.peakWith v), state := r.clearedState, clearTime := some time, tripCount := 0,
                clearCount := 0 }

/-- R148, R149: a rule after an evaluation. -/
def Rule.evaluate (rec : StageRecord) (discharge : Option Int) (r : Rule) : Rule :=
  match r.value rec discharge with
  | none => r
  | some v =>
    match r.state with
    | .disarmed => r
    | .armed | .latched => r.countTrip rec.time v
    | .tripped | .acknowledged => r.countClear rec.time v

/-- R150: whether an evaluation tripped the rule. -/
def tripped (before after : Rule) : Bool :=
  (before.state == .armed || before.state == .latched) && after.state == .tripped

/-- R151: whether an evaluation cleared the rule. -/
def cleared (before after : Rule) : Bool :=
  (before.state == .tripped || before.state == .acknowledged) && (after.state == .armed || after.state == .latched)

/-- R148: the discharge of the one lookup of an evaluation. -/
def State.recordDischarge (s : State) : Option Int :=
  s.stage.record.stage.bind fun h => (forwardLookup s h).discharge

/-- R148: the rules an evaluation leaves. -/
def evaluateRules (s : State) : RuleTable :=
  Vector.ofFn fun i => (s.warning.rules.get i).map fun r => r.evaluate s.stage.record s.recordDischarge

/-- Whether some rule of the table changed in a way. -/
def RuleTable.anyChange (t t' : RuleTable) (change : Rule → Rule → Bool) : Bool :=
  (List.finRange Config.rules).any fun i =>
    match t.get i, t'.get i with
    | some r, some r' => change r r'
    | _, _ => false

/-- R148, R156: the Warning Unit takes a stage publication. -/
def evaluate (s : State) : State :=
  let rules := evaluateRules s
  formEffects (((s.setRules rules).raiseIf (s.warning.rules.anyChange rules tripped) .ruleTripped).raiseIf
    (s.warning.rules.anyChange rules cleared) .ruleCleared)

/-! ### Requests -/

/-- The effect flags as a set of bits (11.3). -/
def EffectFlags.code (f : EffectFlags) : Nat := flagBits [f.floodCadence, f.cableInhibit, f.surfaceOnly, f.remoteLine]

/-- The effect flags a parameter names; none when it names anything else. -/
def EffectFlags.ofWord (w : Word) : Option EffectFlags :=
  if w.toNat < 16 then
    some { floodCadence := w.getLsbD 0, cableInhibit := w.getLsbD 1, surfaceOnly := w.getLsbD 2,
           remoteLine := w.getLsbD 3 }
  else none

/-- R187: the 32-byte rule record of a slot. -/
def ruleBytes (slot : Nat) (r : Option Rule) : List Byte :=
  match r with
  | none => be1 slot ++ List.replicate 31 0
  | some r =>
    be1 slot ++ be1 r.state.code ++ be1 r.quantity.code ++ be4 r.trip ++ be4 r.clear ++
    be1 r.tripPersistence ++ be1 r.clearPersistence ++ be1 r.tripCount ++ be1 r.clearCount ++ be1 r.level ++
    be1 r.acknowledgeRequired.toNat ++ be1 r.siren.code ++ be1 r.flags.code ++
    be1 (flagBits [r.tripTime.isSome, r.peak.isSome, r.clearTime.isSome]) ++
    beWord (r.tripTime.getD 0) ++ be4 (orZero r.peak) ++ beWord (r.clearTime.getD 0)

/-- R140: the range of the thresholds of a quantity. -/
def Quantity.admits : Quantity → Int → Bool
  | .stage, v => within Config.stageMin Config.stageMax v
  | .rate, v => within (-Config.rateMax) Config.rateMax v
  | .discharge, v => within 0 Config.dischargeMax v

/-- R142 checks 2 to 12, on the parameters after the slot: the rule defined, or the reason and detail of the first
check that fails. -/
def checkRule (old : Option Rule) (quantity trip clear tripPers clearPers level ack siren flags : Word) :
    Except (Reject × Nat) Rule :=
  if (old.map fun r => r.state != .disarmed).getD false then .error (.ruleActive, 0)
  else match Quantity.ofCode quantity with
    | none => .error (.badField, 1)
    | some q =>
      if ¬ q.admits trip.toInt then .error (.badField, 2)
      else if ¬ q.admits clear.toInt then .error (.badField, 3)
      else if trip.toInt < clear.toInt then .error (.badField, 3)
      else if ¬ within 1 15 tripPers.toInt then .error (.badField, 4)
      else if ¬ within 1 63 clearPers.toInt then .error (.badField, 5)
      else if ¬ within 1 4 level.toInt then .error (.badField, 6)
      else match flagOf ack, Siren.ofCode siren, EffectFlags.ofWord flags with
        | none, _, _ => .error (.badField, 7)
        | some _, none, _ => .error (.badField, 8)
        | some _, some _, none => .error (.badField, 9)
        | some a, some p, some f =>
          .ok { state := .disarmed, quantity := q, trip := trip.toInt, clear := clear.toInt,
                tripPersistence := tripPers.toNat, clearPersistence := clearPers.toNat, tripCount := 0,
                clearCount := 0, level := level.toNat, acknowledgeRequired := a, siren := p, flags := f,
                tripTime := none, peak := none, clearTime := none }

/-- R142, R143: DEFINE RULE. -/
def defineRule (params : List Byte) (s : State) : Taken :=
  match readWords params with
  | some [slot, quantity, trip, clear, tripPers, clearPers, level, ack, siren, flags] =>
    match slotOf Config.rules slot with
    | none => badField s 0
    | some k =>
      match checkRule (s.warning.rules.rule k) quantity trip clear tripPers clearPers level ack siren flags with
      | .error e => refused s e.1 e.2
      | .ok r => done (s.setRules (s.warning.rules.put k (some r))) (ruleBytes k (some r))
  | _ => badField s 0

/-- A request that carries a rule's slot alone: BadField outside 0 to 15. -/
def onRuleSlot (params : List Byte) (s : State) (act : Nat → Option Rule → Taken) : Taken :=
  match readWords params with
  | some [slot] =>
    match slotOf Config.rules slot with
    | none => badField s 0
    | some k => act k (s.warning.rules.rule k)
  | _ => badField s 0

/-- R144: a rule put into service. -/
def Rule.arm (r : Rule) : Rule := { r with state := .armed, tripCount := 0, clearCount := 0 }

/-- R145: a rule taken out of service. -/
def Rule.disarm (r : Rule) : Rule := { r with state := .disarmed, tripCount := 0, clearCount := 0 }

/-- R144: ARM RULE. -/
def armRule (params : List Byte) (s : State) : Taken :=
  onRuleSlot params s fun k rule =>
    match rule with
    | none => refused s .notFound 0
    | some r =>
      if r.state ≠ .disarmed then refused s .wrongState 0
      else done (s.setRules (s.warning.rules.put k (some r.arm))) (ruleBytes k (some r.arm))

/-- R145, R156: a rule replaced or removed with the effect set formed again, RuleCleared raised when the rule was
contributing. -/
def takeRuleOut (k : Nat) (before : Rule) (after : Option Rule) (s : State) : State :=
  formEffects ((s.setRules (s.warning.rules.put k after)).raiseIf before.contributing .ruleCleared)

/-- R145: DISARM RULE. -/
def disarmRule (params : List Byte) (s : State) : Taken :=
  onRuleSlot params s fun k rule =>
    match rule with
    | none => refused s .notFound 0
    | some r =>
      if r.state = .disarmed then refused s .wrongState 0
      else done (takeRuleOut k r (some r.disarm) s) (ruleBytes k (some r.disarm))

/-- R146: RETIRE RULE. -/
def retireRule (params : List Byte) (s : State) : Taken :=
  onRuleSlot params s fun k rule =>
    match rule with
    | none => refused s .notFound 0
    | some r => done (takeRuleOut k r none s) []

/-- R152: the rule an acknowledgement leaves; none when there is no warning to acknowledge. -/
def Rule.acknowledge (r : Rule) : Option Rule :=
  match r.state with
  | .tripped => some { r with state := .acknowledged }
  | .latched => some r.arm
  | .disarmed | .armed | .acknowledged => none

/-- R152: ACKNOWLEDGE. -/
def acknowledge (params : List Byte) (s : State) : Taken :=
  onRuleSlot params s fun k rule =>
    match rule.bind Rule.acknowledge with
    | none => refused s .notActive 0
    | some r => done (formEffects (s.setRules (s.warning.rules.put k (some r)))) (ruleBytes k (some r))

/-- R147: the summary of all sixteen slots and the station warning level. -/
def ruleSummary (w : WarningUnit) : List Byte :=
  (w.rules.slots.flatMap fun p =>
    match p.2 with
    | none => be1 0 ++ be1 0
    | some r => be1 r.state.code ++ be1 r.level) ++ be1 w.level

/-- R147: READ RULE. -/
def readRule (params : List Byte) (s : State) : Taken :=
  match params with
  | [] => done s (ruleSummary s.warning)
  | _ => onRuleSlot params s fun k rule => done s (ruleBytes k rule)

/-! ### The pattern generator -/

/-- R161: the phase after a phase. -/
def Phase.turn : Phase → Phase
  | .on => .off
  | .off => .on

/-- R161: a phase of pattern 2 or 3 ends. Pattern 1 has no end of its On phase, and a stopped generator has none. -/
def patternPhaseEnd (s : State) : State :=
  match s.warning.winning with
  | .p2 | .p3 => s.setWarning { s.warning with phase := s.warning.phase.turn, phaseElapsed := 0 }
  | .none | .p1 => s

/-- R161: the siren line. -/
def WarningUnit.siren (w : WarningUnit) : Bool := w.winning != .none && w.phase == .on

/-- R159: the effect report, 17 bytes. -/
def WarningUnit.report (w : WarningUnit) : List Byte :=
  be2 (slotBits w.effects.pattern1) ++ be2 (slotBits w.effects.pattern2) ++ be2 (slotBits w.effects.pattern3) ++
  be2 (slotBits w.effects.floodCadence) ++ be2 (slotBits w.effects.cableInhibit) ++
  be2 (slotBits w.effects.surfaceOnly) ++ be2 (slotBits w.effects.remoteLine) ++ be1 w.winning.code ++
  be1 (match w.phase with
    | .off => 0
    | .on => 1) ++
  be1 (flagBits [w.siren, w.beacon, w.remote])

/-! ### Meanings -/

/-- DEFINE_RULE (R142). -/
def execDefineRule (params : List Byte) (s : State) : Host.Outcome State Fault Refusal :=
  onSelectPeriod (takeRequest RequestName.defineRule.code params defineRule) s

/-- ARM_RULE (R144). -/
def execArmRule (params : List Byte) (s : State) : Host.Outcome State Fault Refusal :=
  onSelectPeriod (takeRequest RequestName.armRule.code params armRule) s

/-- DISARM_RULE (R145). -/
def execDisarmRule (params : List Byte) (s : State) : Host.Outcome State Fault Refusal :=
  onSelectPeriod (takeRequest RequestName.disarmRule.code params disarmRule) s

/-- ACKNOWLEDGE (R152). -/
def execAcknowledge (params : List Byte) (s : State) : Host.Outcome State Fault Refusal :=
  onSelectPeriod (takeRequest RequestName.acknowledge.code params acknowledge) s

/-- RETIRE_RULE (R146). -/
def execRetireRule (params : List Byte) (s : State) : Host.Outcome State Fault Refusal :=
  onSelectPeriod (takeRequest RequestName.retireRule.code params retireRule) s

/-- READ_RULE (R147). -/
def execReadRule (params : List Byte) (s : State) : Host.Outcome State Fault Refusal :=
  onSelectPeriod (takeRequest RequestName.readRule.code params readRule) s

/-- PATTERN_PHASE_END (R161). -/
def execPatternPhaseEnd (s : State) : Host.Outcome State Fault Refusal :=
  unlessHeld patternPhaseEnd s

end Sys2Proof.Machine
end

