-- ==== Sys2Proof/Machine/Settlement.lean ====
section
/-! DEFINITION. Stage Settlement (chapter 2): the stage interval, the vote, the choice of stage, rate and trend, the
publication and its two consumers, and SET VOTE. -/

namespace Sys2Proof.Machine

/-! ### The vote setup -/

/-- R25: the role of a channel under a setup. -/
inductive Role where
  | primary | check | neither
  deriving DecidableEq, Repr

/-- R23, R25: the role of a channel. -/
def VoteSetup.role (u : VoteSetup) (i : ChannelNumber) : Role :=
  if i = u.primary then .primary else if u.checks.getLsbD i.val then .check else .neither

/-- R26: a standing taken with both counts at 0. -/
def VoteRecord.stand (v : VoteRecord) (x : Standing) : VoteRecord :=
  { v with standing := x, disagree := 0, agree := 0 }

/-- R25: a channel started afresh in a role. -/
def VoteRecord.fresh (role : Role) : VoteRecord :=
  { standing := match role with
      | .neither => .excluded
      | .primary | .check => .candidate,
    disagree := 0, agree := 0, watch := none }

/-- R25: the vote records under a new setup. -/
def votesUnderSetup (votes : Vector VoteRecord Config.channels) (old new : VoteSetup) :
    Vector VoteRecord Config.channels :=
  Vector.ofFn fun i => if old.role i = new.role i then votes.get i else VoteRecord.fresh (new.role i)

/-- R34: whether some standing differs. -/
def standingsDiffer (votes votes' : Vector VoteRecord Config.channels) : Bool :=
  (List.finRange Config.channels).any fun i => (votes.get i).standing != (votes'.get i).standing

/-- R34: vote records replaced; a change of standing raises ChannelChanged. -/
def State.setVotes (s : State) (votes : Vector VoteRecord Config.channels) : State :=
  (s.setStage { s.stage with votes := votes }).raiseIf (standingsDiffer s.stage.votes votes) .channelChanged

/-- R25: a pending setup replaces the setup in force. -/
def replaceSetup (s : State) : State :=
  match s.stage.pendingSetup with
  | none => s
  | some u =>
    let s' := s.setVotes (votesUnderSetup s.stage.votes s.stage.setup u)
    s'.setStage { s'.stage with setup := u, pendingSetup := none }

/-! ### Comparisons (R27 to R31) -/

/-- The vote record of a channel. -/
def State.vote (s : State) (i : ChannelNumber) : VoteRecord := s.stage.votes.get i

/-- R27: whether a channel is Valid. -/
def State.validChannel (s : State) (i : ChannelNumber) : Bool := (s.channel i).condition == .valid

/-- The reading of a channel, which is present while it is Valid. -/
def State.readingOf (s : State) (i : ChannelNumber) : Int := (s.channel i).reading.getD 0

/-- R28: whether a channel is Valid and a Candidate. -/
def State.mayServe (s : State) (i : ChannelNumber) : Bool := s.validChannel i && (s.vote i).standing == .candidate

/-- The checks, in channel order. -/
def State.checkList (s : State) : List ChannelNumber :=
  (List.finRange Config.channels).filter fun i => s.stage.setup.role i == .check

/-- R28, R36: the primary, else the lowest-numbered check, that is Valid and a Candidate. -/
def State.server (s : State) : Option ChannelNumber :=
  if s.mayServe s.stage.setup.primary then some s.stage.setup.primary else s.checkList.find? s.mayServe

/-- R27: two readings agree within the agreement band. -/
def State.agree (s : State) (i j : ChannelNumber) : Bool :=
  decide (((s.readingOf i - s.readingOf j).natAbs : Int) ≤ s.setting .agreementBand)

/-- R30: the checks that are Valid Candidates. -/
def State.agreeingSet (s : State) : List ChannelNumber := s.checkList.filter s.mayServe

/-- R30: the demotion condition. -/
def State.demotion (s : State) : Bool :=
  s.server == some s.stage.setup.primary && decide (2 ≤ s.agreeingSet.length) &&
  s.agreeingSet.all (fun i => !s.agree i s.stage.setup.primary) &&
  s.agreeingSet.all fun i => s.agreeingSet.all fun j => s.agree i j

/-- R29: the counts of a channel compared with the reference. -/
def VoteRecord.compare (agrees : Bool) (v : VoteRecord) : VoteRecord :=
  if agrees then { v with agree := countUp Config.voteCountMax v.agree, disagree := 0 }
  else { v with disagree := countUp Config.voteCountMax v.disagree, agree := 0 }

/-- R29 to R31: a new standing when a count has reached the vote persistence. -/
def VoteRecord.judge (persistence : Int) (v : VoteRecord) : VoteRecord :=
  match v.standing with
  | .candidate => if persistence ≤ v.disagree then v.stand .disagreeing else v
  | .disagreeing => if persistence ≤ v.agree then v.stand .candidate else v
  | .excluded | .stuck => v

/-- R30: the primary as reference: its disagreement count goes up or to 0, and its agreement count is held at 0. -/
def VoteRecord.testPrimary (demoted : Bool) (v : VoteRecord) : VoteRecord :=
  { v with disagree := if demoted then countUp Config.voteCountMax v.disagree else 0, agree := 0 }

/-- R28, R29, R31: whether a channel other than the reference is compared. -/
def State.comparable (s : State) (i : ChannelNumber) : Bool :=
  s.validChannel i &&
  match s.stage.setup.role i, (s.vote i).standing with
  | .check, .candidate | .check, .disagreeing | .primary, .disagreeing => true
  | _, _ => false

/-- R27 to R31: the vote record of a channel after the comparisons of a settlement, worked out from the starting
values. -/
def State.compared (s : State) (i : ChannelNumber) : VoteRecord :=
  let v := s.vote i
  match s.server with
  | none => v
  | some reference =>
    if i = reference then
      if i = s.stage.setup.primary then (v.testPrimary s.demotion).judge (s.setting .votePersistence) else v
    else if s.demotion && s.agreeingSet.contains i then { v with disagree := 0 }
    else if s.comparable i then (v.compare (s.agree i reference)).judge (s.setting .votePersistence)
    else v

/-! ### The stuck watch (R32, R33) -/

/-- R32: a watch started at the present count and the last stage. -/
def startWatch (count : Word) (last : Option Int) : StuckWatch := { count := count, stage := last, settlements := 0 }

/-- R32: a watch advanced by a settlement. -/
def StuckWatch.advance (count : Word) (last : Option Int) (w : StuckWatch) : StuckWatch :=
  if count ≠ w.count then startWatch count last
  else { w with settlements := countUp Config.watchMax w.settlements, stage := w.stage.or last }

/-- R32: whether a watch makes its channel Stuck. -/
def StuckWatch.stuck (limit band : Int) (last : Option Int) (w : StuckWatch) : Bool :=
  match last, w.stage with
  | some a, some b => decide (limit ≤ w.settlements) && decide (band < ((a - b).natAbs : Int))
  | _, _ => false

/-- R32: the watch of a Candidate or Disagreeing encoder at a settlement. -/
def VoteRecord.nextWatch (count : Word) (last : Option Int) (v : VoteRecord) : StuckWatch :=
  match v.watch with
  | none => startWatch count last
  | some w => w.advance count last

/-- R33: a Stuck encoder at a settlement. -/
def VoteRecord.whileStuck (count : Word) (last : Option Int) (v : VoteRecord) : VoteRecord :=
  match v.watch with
  | some w =>
    if count ≠ w.count then { v.stand .candidate with watch := some (startWatch count last) }
    else { v with watch := some { w with settlements := countUp Config.watchMax w.settlements } }
  | none => { v.stand .candidate with watch := some (startWatch count last) }

/-- R27, R32, R33: the watch step, on the record `compared` leaves; Stuck takes precedence over its standing. -/
def VoteRecord.watchStep (kind : ChannelKind) (count : Word) (last : Option Int) (limit band : Int)
    (starting compared : VoteRecord) : VoteRecord :=
  match kind, starting.standing with
  | _, .excluded => compared
  | .encoder, .stuck => compared.whileStuck count last
  | .encoder, .candidate | .encoder, .disagreeing =>
    let w := starting.nextWatch count last
    if w.stuck limit band last then { compared.stand .stuck with watch := some w }
    else { compared with watch := some w }
  | _, .stuck => { compared.stand .candidate with watch := none }
  | _, .candidate | _, .disagreeing => { compared with watch := none }

/-- R27: the vote record of a channel after a settlement. -/
def State.settledVote (s : State) (i : ChannelNumber) : VoteRecord :=
  VoteRecord.watchStep (s.channel i).kind (s.channel i).count s.stage.record.stage (s.setting .stuckLimit)
    (s.setting .agreementBand) (s.vote i) (s.compared i)

/-! ### The stage record (R36 to R40) -/

/-- R36, R37: a settled stage with its source, quality and the count of consecutive Held settlements. -/
structure Choice where
  stage : Option Int
  source : Option ChannelNumber
  quality : Quality
  held : Nat

/-- R36, R37: the choice of the settled stage, on the standings after the vote. -/
def chooseStage (s : State) : Choice :=
  match s.server with
  | some i =>
    { stage := some (s.readingOf i), source := some i,
      quality := if i = s.stage.setup.primary then .good else .failover, held := 0 }
  | none =>
    if s.stage.record.stage.isSome ∧ (s.stage.heldCount : Int) < s.setting .holdLimit then
      { stage := s.stage.record.stage, source := none, quality := .held, held := s.stage.heldCount + 1 }
    else { stage := none, source := none, quality := .none, held := s.stage.heldCount }

/-- R38: the raw rate, truncated toward zero and held. -/
def rawRate (new last : Int) (seconds : Nat) : Int :=
  clampTo (-Config.rateMax) Config.rateMax (Int.tdiv ((new - last) * 3600) seconds)

/-- R38: the smoothed rate, one quarter of the way to the raw rate, truncated toward zero. -/
def smoothRate (previous raw : Int) : Int := previous + Int.tdiv (raw - previous) 4

/-- R38: the rate of a new record, from the record before it and the length of the interval just ended. -/
def nextRate (last : StageRecord) (c : Choice) (seconds : Nat) : Int :=
  match c.stage, last.stage with
  | some new, some old =>
    if c.quality = .held ∨ last.quality = .held then last.rate
    else smoothRate last.rate (rawRate new old seconds)
  | _, _ => last.rate

/-- R39: the trend of a rate. -/
def trendOf (steady rate : Int) : Trend :=
  if steady ≤ rate then .rising else if rate ≤ -steady then .falling else .steady

/-- R40: the record a settlement publishes. -/
def newRecord (s : State) (c : Choice) (ended : StageInterval) : StageRecord :=
  { sequence := s.stage.record.sequence + 1, stage := c.stage, source := c.source, quality := c.quality,
    rate := nextRate s.stage.record c ended.length,
    trend := trendOf (s.setting .steadyLimit) (nextRate s.stage.record c ended.length), time := s.clock,
    cadence := ended.cadence }

/-- R37, R40: the publication. -/
def publish (ended : StageInterval) (s : State) : State :=
  let c := chooseStage s
  (s.setStage { s.stage with record := newRecord s c ended, heldCount := c.held }).raiseIf
    (c.quality == .none && s.stage.record.quality != .none) .stageLost

/-- R25 to R34: the vote of a settlement, under the setup that now comes into force. -/
def takeVote (s : State) : State :=
  (replaceSetup s).setVotes (Vector.ofFn (replaceSetup s).settledVote)

/-- R25 to R40: one settlement for the interval that ended. -/
def settle (ended : StageInterval) (s : State) : State := publish ended (takeVote s)

/-! ### The interval (R20, R21) and the consumers of a publication -/

/-- R21: the cadence in force. -/
def State.cadenceInForce (s : State) : Cadence :=
  if !s.warning.effects.floodCadence.isEmpty || s.run.state == .running || s.run.state == .returning then .flood
  else .quiet

/-- R20, R21: the interval that begins, of the cadence in force. -/
def nextInterval (s : State) : StageInterval :=
  { length := match s.cadenceInForce with
      | .quiet => (s.setting .quietCadence).toNat
      | .flood => (s.setting .floodCadence).toNat,
    cadence := s.cadenceInForce, elapsed := 0 }

/-- R40, R121, R148: the Gauging Unit and the Warning Unit take the publication, in either order (LOG 9). -/
def consumePublication (s : State) : State :=
  let s' := s.setFreeReads (s.freeReads + 1)
  chooseOutcome s.freeReads (evaluate (gaugingTakesPublication s')) [gaugingTakesPublication (evaluate s')]

/-- R20: the next interval begins, one settlement is made and published, and its readers take it. -/
def stageIntervalExpiry (s : State) : State :=
  consumePublication (settle s.stage.interval (s.setStage { s.stage with interval := nextInterval s }))

/-! ### SET VOTE -/

/-- R187: the 13-byte block of a channel in the vote report. -/
def VoteRecord.bytes (v : VoteRecord) : List Byte :=
  be1 v.standing.code ++ be1 v.disagree ++ be1 v.agree ++
  be1 (flagBits [v.watch.isSome, (v.watch.bind fun w => w.stage).isSome]) ++
  beWord ((v.watch.map fun w => w.count).getD 0) ++ be4 (orZero (v.watch.bind fun w => w.stage)) ++
  be1 ((v.watch.map fun w => w.settlements).getD 0 : Nat)

/-- The primary and the check mask of a setup, one byte each. -/
def VoteSetup.bytes (u : VoteSetup) : List Byte := be1 u.primary.val ++ be1 u.checks.toNat

/-- R24: the 58-byte vote report. -/
def StageBlock.voteReport (b : StageBlock) : List Byte :=
  b.setup.bytes ++
  (match b.pendingSetup with
    | none => be1 0 ++ be1 0 ++ be1 0
    | some u => be1 1 ++ u.bytes) ++
  b.votes.toList.flatMap VoteRecord.bytes ++ be1 b.heldCount

/-- R24: the check mask of a parameter; none when it names the primary or anything but a channel. -/
def checkMaskOf (primary : ChannelNumber) (w : Word) : Option (BitVec 4) :=
  if w.toNat < 16 ∧ w.getLsbD primary.val = false then some (w.setWidth 4) else none

/-- R24: SET VOTE. Where both parameters are bad the primary is reported (LOG 31: the model's choice). -/
def setVote (params : List Byte) (s : State) : Taken :=
  match readWords params with
  | some [] => done s s.stage.voteReport
  | some [primary, mask] =>
    match channelOf primary with
    | none => badField s 0
    | some p =>
      match checkMaskOf p mask with
      | none => badField s 1
      | some m =>
        let b := { s.stage with pendingSetup := some { primary := p, checks := m } }
        done (s.setStage b) b.voteReport
  | _ => badField s 0

/-! ### Meanings -/

/-- SET_VOTE (R24). -/
def execSetVote (params : List Byte) (s : State) : Host.Outcome State Fault Refusal :=
  onSelectPeriod (takeRequest RequestName.setVote.code params setVote) s

/-- STAGE_INTERVAL_EXPIRY (R20). -/
def execStageIntervalExpiry (s : State) : Host.Outcome State Fault Refusal :=
  unlessHeld stageIntervalExpiry s

end Sys2Proof.Machine
end

