-- ==== Sys2Proof/Machine/Port.lean ====
section
/-! DEFINITION. The Station Port and the Station Clock (chapter 10, R44 to R49): the cursor, the port's own requests,
the station summary, RESTART, Reset, select periods and frames, the second, and the output lines. -/

namespace Sys2Proof.Machine

/-! ### The table cursor (R44 to R49) -/

/-- R44: the number of slots of a table. -/
def Table.slots : Table → Nat
  | .draft | .active => Config.ratingPoints
  | .verticals => Config.verticals

/-- R44: the number of fields of an entry. -/
def Table.fieldCount : Table → Nat
  | .draft | .active => 2
  | .verticals => 4

/-- The count of entries a table holds. -/
def State.tableCount (s : State) : Table → Nat
  | .draft => s.rating.draft.length
  | .active => s.rating.active.points.length
  | .verticals => s.verticals.length

/-- The cursor replaced. -/
def State.setCursor (s : State) (c : Cursor) : State := s.setPort { s.port with cursor := c }

/-- R47: an index moved on, wrapping past the last slot. -/
def Table.onward (t : Table) (index n : Nat) : Nat := (index + n) % t.slots

/-- R45: the cursor as SET CURSOR answers it. -/
def State.cursorBytes (s : State) : List Byte :=
  be1 s.port.cursor.table.code ++ be1 s.port.cursor.index ++ be1 s.port.cursor.fields.length ++
  be1 (s.tableCount s.port.cursor.table)

/-- R45: SET CURSOR. Where both parameters are bad the table is reported (LOG 31: the model's choice). -/
def setCursor (params : List Byte) (s : State) : Taken :=
  match readWords params with
  | some [] => done s s.cursorBytes
  | some [table, index] =>
    match Table.ofCode table with
    | none => badField s 0
    | some t =>
      match slotOf t.slots index with
      | none => badField s 1
      | some k =>
        done (s.setCursor { table := t, index := k, fields := [] })
          (s.setCursor { table := t, index := k, fields := [] }).cursorBytes
  | _ => badField s 0

/-- R46, R48, R81: a complete entry handed to the owner of the cursor's table, at the cursor's index. A taken commit of
a vertical is a test of an Armed run (R121). -/
def commitEntry (fields : List Word) (s : State) : Except (Reject × Nat) State :=
  match s.port.cursor.table, fields with
  | .draft, [stage, discharge] =>
    match commitPoint s s.port.cursor.index { stage := stage.toInt, discharge := discharge.toInt } with
    | .error e => .error e
    | .ok draft => .ok (draftChange draft s)
  | .verticals, [distance, bed, plan, skip] =>
    match commitVertical s s.port.cursor.index distance bed plan skip with
    | .error e => .error e
    | .ok table => .ok (startIfReady (s.setVerticals table))
  | _, _ => .error (.readOnly, 0)

/-- R47: the cursor after a taken commit. -/
def State.advanceCursor (s : State) (n : Nat) : State :=
  s.setCursor { s.port.cursor with index := s.port.cursor.table.onward s.port.cursor.index n, fields := [] }

/-- R46, R47: the values of a WRITE FIELDS taken in order; the second argument counts the values taken. -/
def takeValues : List Word → Nat → State → Taken
  | [], taken, s =>
    done s (be1 s.port.cursor.index ++ be1 s.port.cursor.fields.length ++ be1 taken)
  | w :: ws, taken, s =>
    let fields := s.port.cursor.fields ++ [w]
    if fields.length < s.port.cursor.table.fieldCount then
      takeValues ws (taken + 1) (s.setCursor { s.port.cursor with fields := fields })
    else
      match commitEntry fields s with
      | .error e =>
        { state := s.setCursor { s.port.cursor with fields := [] }, reply := .refusedFields e.1 e.2 (taken + 1) }
      | .ok s' => takeValues ws (taken + 1) (s'.advanceCursor 1)

/-- R46: WRITE FIELDS. -/
def writeFields (params : List Byte) (s : State) : Taken :=
  match readWords params with
  | none => { state := s, reply := .refusedFields .badField 0 0 }
  | some ws =>
    if ws.length = 0 ∨ 16 < ws.length then { state := s, reply := .refusedFields .badField 0 0 }
    else if s.port.cursor.table = .active then { state := s, reply := .refusedFields .readOnly 0 0 }
    else takeValues ws 0 s

/-- R187: the 9-byte rating entry of a slot. -/
def pointBytes (p : Option Point) : List Byte :=
  match p with
  | none => be1 0 ++ be4 0 ++ be4 0
  | some p => be1 1 ++ be4 p.stage ++ be4 p.discharge

/-- R49: the entry of a slot of a table, absent at or beyond the count. -/
def State.entryBytes (s : State) (t : Table) (k : Nat) : List Byte :=
  match t with
  | .draft => pointBytes s.rating.draft[k]?
  | .active => pointBytes s.rating.active.points[k]?
  | .verticals => verticalBytes s.verticals[k]?

/-- R49: the header of READ ENTRIES. -/
def State.entryHeader (s : State) (t : Table) (k : Nat) : List Byte :=
  be1 t.code ++ be1 k ++ be1 (s.tableCount t) ++
  match t with
  | .active => be2 s.rating.active.number.toNat ++ beWord s.rating.active.effectiveFrom
  | .draft | .verticals => []

/-- R49: READ ENTRIES. -/
def readEntries (params : List Byte) (s : State) : Taken :=
  match readWords params with
  | some [number] =>
    if ¬ within 1 8 number.toInt then badField s 0
    else if s.port.cursor.fields ≠ [] then refused s .wrongState 0
    else
      let t := s.port.cursor.table
      let k := s.port.cursor.index
      done (s.advanceCursor number.toNat)
        (s.entryHeader t k ++ (List.range number.toNat).flatMap fun j => s.entryBytes t (t.onward k j))
  | _ => badField s 0

/-! ### Identity, attention and the clock (R176 to R178) -/

/-- R177: the body of IDENTIFY. -/
def State.identity (s : State) : List Byte :=
  be2 Config.vendorCode ++ be2 Config.partCode ++ be1 Config.revision ++ be1 s.port.unitAddress.toNat ++
  be1 s.fitted.toNat ++ be1 Config.channels ++ be1 Config.ratingPoints ++ be1 Config.shiftBands ++
  be1 Config.verticals ++ be1 Config.rules ++ be1 Config.settings

/-- A request that carries no parameters; BadField with any (R173, R186), before any other check (LOG 33: the model's
inference). -/
def bare (params : List Byte) (s : State) (act : Taken) : Taken :=
  match params with
  | [] => act
  | _ => badField s 0

/-- R177: IDENTIFY. -/
def identify (params : List Byte) (s : State) : Taken := bare params s (done s s.identity)

/-- The attention set replaced. -/
def State.setAttention (s : State) (set : BitVec 12) : State := s.setPort { s.port with attention := set }

/-- R176: READ ATTENTION. -/
def readAttention (params : List Byte) (s : State) : Taken :=
  bare params s
    (done (s.setAttention (s.port.attention &&& ~~~ s.port.attention))
      (be2 s.port.attention.toNat ++ be2 s.port.mask.toNat))

/-- R176: the mask a parameter names; none when it names AnswerReady or anything that is not a reason. -/
def maskOf (w : Word) : Option (BitVec 12) :=
  if w.toNat < 4096 ∧ w.getLsbD Reason.answerReady.bit = false then some (w.setWidth 12) else none

/-- R176: SET ATTENTION MASK. -/
def setAttentionMask (params : List Byte) (s : State) : Taken :=
  match readWords params with
  | some [] => done s (be2 s.port.mask.toNat ++ be2 s.port.attention.toNat)
  | some [set] =>
    match maskOf set with
    | none => badField s 0
    | some m =>
      done (s.setPort { s.port with mask := m }) (be2 m.toNat ++ be2 s.port.attention.toNat)
  | _ => badField s 0

/-- R178: SET CLOCK. -/
def setClock (params : List Byte) (s : State) : Taken :=
  match readWords params with
  | some [count] => done (s.setClock count) (beWord s.clock ++ beWord count)
  | _ => badField s 0

/-- R178: READ CLOCK. -/
def readClock (params : List Byte) (s : State) : Taken := bare params s (done s (beWord s.clock))

/-! ### The station summary (R182) -/

/-- R187: the 19-byte stage record. -/
def StageRecord.bytes (r : StageRecord) : List Byte :=
  be2 r.sequence.toNat ++ be1 (flagBits [r.stage.isSome, r.source.isSome]) ++ be4 (orZero r.stage) ++
  be1 ((r.source.map fun i => i.val).getD 0 : Nat) ++ be1 r.quality.code ++ be4 r.rate ++ be1 r.trend.code ++
  beWord r.time ++ be1 r.cadence.code

/-- R182: the presence byte and the lookup result of the rated discharge. -/
def State.ratedBytes (s : State) : List Byte :=
  match s.stage.record.stage with
  | some h => be1 1 ++ (forwardLookup s h).bytes
  | none => be1 0 ++ List.replicate 19 0

/-- R187: the 6-byte adoption record. A byte without meaning is 0 (LOG 20). -/
def Adoption.bytes (a : Adoption) : List Byte :=
  be1 a.request.isSome.toNat ++
  match a.lastOutcome with
  | .absent => be1 0 ++ be2 0 ++ be1 0 ++ be1 0
  | .adopted number => be1 1 ++ be2 number.toNat ++ be1 0 ++ be1 0
  | .rejectedOrder index => be1 2 ++ be2 0 ++ be1 1 ++ be1 index
  | .rejectedTooFew => be1 2 ++ be2 0 ++ be1 2 ++ be1 0
  | .rejectedDraftChanged => be1 2 ++ be2 0 ++ be1 3 ++ be1 0

/-- R98: the movement in progress; homing is no movement. -/
def Activity.movementCode : Activity → Int
  | .moving m => m.code
  | .idle | .homing _ => 0

/-- R98: the fault bytes of the carriage record. -/
def faultBytes (f : Option FaultRecord) : List Byte :=
  match f with
  | none => List.replicate 13 0
  | some f =>
    (match f.kind with
      | .jam .traverse => be1 4 ++ be1 0
      | .jam .hoist => be1 4 ++ be1 1
      | .snag => be1 5 ++ be1 0) ++
    be1 f.state.code ++ be4 (orZero f.position) ++ be2 f.depth ++ beWord f.time

/-- R98: the 34-byte carriage record. -/
def State.carriageBytes (s : State) : List Byte :=
  be1 s.cable.state.code ++
  be1 (flagBits [s.knownPosition.isSome, s.cable.lastFault.isSome,
    (s.cable.lastFault.bind fun f => f.position).isSome]) ++
  be4 (orZero s.knownPosition) ++ beWord s.cable.traverseCount ++ beWord s.cable.depthCount ++ be2 s.depth ++
  be1 (flagBits [s.asserted .home, s.asserted .top, s.asserted .surface, s.asserted .bottom, s.asserted .snag]) ++
  be1 (flagBits [s.cable.traverse.on, s.cable.traverse.way == .outward, s.cable.hoist.on,
    s.cable.hoist.way == .down]) ++
  be1 s.cable.traverse.duty ++ be1 s.cable.hoist.duty ++ be1 s.cable.activity.movementCode ++
  faultBytes s.cable.lastFault

/-- R182: the 8-byte run summary. -/
def RunRecord.summary (r : RunRecord) : List Byte :=
  be2 ((r.id.getD 0).toNat) ++ be1 r.state.code ++ be1 (orZero (r.step.map Step.code)) ++
  be1 (r.current.getD 0 : Nat) ++ be1 (orZero (r.endReason.map EndReason.code)) ++
  be1 (orZero (r.fault.map RunFault.code)) ++
  be1 (flagBits [r.id.isSome, true, r.step.isSome, r.current.isSome, r.endReason.isSome, r.fault.isSome])

/-- R182: the 111 bytes of READ STATION. -/
def State.summary (s : State) : List Byte :=
  beWord s.clock ++ s.stage.record.bytes ++ s.ratedBytes ++ be2 s.rating.active.number.toNat ++
  s.rating.adoption.bytes ++ s.carriageBytes ++ s.run.summary ++ s.warning.report ++ be1 s.warning.level

/-- R182: READ STATION. -/
def readStation (params : List Byte) (s : State) : Taken := bare params s (done s s.summary)

/-! ### RESTART and Reset (R183, R184, R190) -/

/-- R44, R184: the cursor after Reset and RESTART. -/
def Cursor.reset : Cursor := { table := .draft, index := 0, fields := [] }

/-- R183: what RESTART does in every block, with the attention set emptied last. -/
def restartBlocks (s : State) : State :=
  ((abandonAdoption (restartRun (deliver (restartCable s)))).setCursor Cursor.reset).setAttention 0

/-- R183: RESTART. -/
def restart (params : List Byte) (s : State) : Taken := bare params s (done (restartBlocks s) [])

/-- The machine at its Reset values, with the reset pin held or not. The queue and the count of free values are not the
part's. -/
def resetWith (pins : ResetPins) (held : Bool) (s : State) : State :=
  { State.powerUp pins with resetHeld := held, freeReads := s.freeReads, pending := s.pending }

/-- The pins that give the straps, contact levels and mark line levels a state holds. No select period is recorded: the
rise of the reset pin finds out (LOG 8). -/
def State.pinsHeld (s : State) : ResetPins :=
  { unitAddress := s.port.unitAddress, cablewayFitted := s.port.cablewayFitted, contacts := s.cable.contacts,
    marks := Vector.ofFn fun i => (s.channel i).markLine, select := .high }

/-- R190: the reset pin taken low gives every record its Reset value at that instant, with what was sampled before
(LOG 8); its rise ends Reset and samples the pins. -/
def takeReset (pin : ResetPin) (s : State) : State :=
  match pin with
  | .low => resetWith s.pinsHeld true s
  | .high pins => resetWith pins false s

/-! ### Frames (R170 to R174) -/

/-- R173: the owner of a request. -/
def owner : RequestName → List Byte → State → Taken
  | .identify => identify
  | .readAttention => readAttention
  | .setAttentionMask => setAttentionMask
  | .setClock => setClock
  | .readClock => readClock
  | .writeSettings => writeSettings
  | .readSettings => readSettings
  | .readStation => readStation
  | .restart => restart
  | .configureChannel => configureChannel
  | .setChannelStage => setChannelStage
  | .readChannel => readChannel
  | .setVote => setVote
  | .setCursor => setCursor
  | .writeFields => writeFields
  | .readEntries => readEntries
  | .retirePoint => retirePoint
  | .copyRating => copyRating
  | .adoptRating => adoptRating
  | .lookup => lookup
  | .defineShift => defineShift
  | .retireShift => retireShift
  | .readShifts => readShifts
  | .retireVertical => retireVertical
  | .homeCarriage => homeCarriage
  | .clearFault => clearFault
  | .setMeter => setMeter
  | .startRun => startRun
  | .abortRun => abortRunRequest
  | .readRun => readRun
  | .acceptGauging => acceptGauging
  | .defineRule => defineRule
  | .armRule => armRule
  | .disarmRule => disarmRule
  | .acknowledge => acknowledge
  | .retireRule => retireRule
  | .readRule => readRule

/-- R173: the owner of the request a code names; a code that names none is refused with UnknownRequest. -/
def ownerOfCode (code : Byte) (params : List Byte) (s : State) : Taken :=
  match RequestName.ofCode code with
  | some r => owner r params s
  | none => refused s .unknownRequest 0

/-- R170: the whole bytes of the bits taken, most significant bit first. -/
def takeBytes : List Bool → List Byte
  | b7 :: b6 :: b5 :: b4 :: b3 :: b2 :: b1 :: b0 :: rest =>
    BitVec.ofNat 8 (flagBits [b0, b1, b2, b3, b4, b5, b6, b7]) :: takeBytes rest
  | _ => []

/-- The bits of bytes, most significant bit first. -/
def bitsOf (bytes : List Byte) : List Bool :=
  bytes.flatMap fun b => [b.getLsbD 7, b.getLsbD 6, b.getLsbD 5, b.getLsbD 4, b.getLsbD 3, b.getLsbD 2, b.getLsbD 1,
    b.getLsbD 0]

/-- The sum of bytes modulo 256. -/
def byteSum (bytes : List Byte) : Byte := bytes.foldr (· + ·) 0

/-- R171: whether a request frame of some bytes is well formed. -/
def wellFormedFrame (whole : Bool) (bytes : List Byte) : Bool :=
  whole && decide (3 ≤ bytes.length) && decide ((bytes.getD 2 0).toNat ≤ 128) &&
  decide (bytes.length = (bytes.getD 2 0).toNat + 4) && byteSum bytes == 0

/-- R171, R172: a request frame addressed to the part ends. -/
def requestFrame (whole : Bool) (bytes : List Byte) (s : State) : State :=
  if s.port.slot.isSome then s.undriven.raise .overrun
  else if wellFormedFrame whole bytes then
    takeRequest (bytes.getD 1 0) ((bytes.drop 3).take (bytes.getD 2 0).toNat) (ownerOfCode (bytes.getD 1 0)) s
  else s.fillSlot ((Reply.refused .frameError 0).answer (bytes.getD 1 0))

/-- R185: status codes; No answer is 0. -/
def Status.code : Status → Byte
  | .done => 1
  | .accepted => 2
  | .refused => 3

/-- R174: the bytes from the status to the end of the body. -/
def answerBytes (slot : Option Answer) : List Byte :=
  match slot with
  | none => [0, 0, 0]
  | some a => [a.status.code, a.code, BitVec.ofNat 8 a.body.length] ++ a.body

/-- R174: what the part sends from the second byte of a fetch frame on: fill, answer, check byte. -/
def fetchBytes (slot : Option Answer) : List Byte :=
  [0] ++ answerBytes slot ++ [0 - byteSum (answerBytes slot)]

/-- R174: the bytes data out carries when the host clocks some number of bytes; beyond the check byte it reads 0. -/
def sentBytes (slot : Option Answer) (clocked : Nat) : List Byte :=
  (fetchBytes slot).take clocked ++ List.replicate (clocked - (fetchBytes slot).length) 0

/-- R174: a fetch frame addressed to the part, in which the host clocks some number of bytes after the address
byte. -/
def fetchFrame (clocked : Nat) (s : State) : State :=
  let sent := s.setPort { s.port with sdo := .driven (sentBytes s.port.slot clocked) }
  match s.port.slot with
  | none => sent
  | some a =>
    if a.body.length + 5 ≤ clocked then (sent.setPort { sent.port with slot := none }).dropReason .answerReady
    else sent

/-- R170: a select period, by the bits taken in it. Data out stays at high impedance but in a fetch frame addressed to
the part. -/
def selectPeriod (bits : List Bool) (s : State) : State :=
  match takeBytes bits with
  | [] => s.undriven
  | address :: rest =>
    if address.extractLsb' 5 3 ≠ s.port.unitAddress ∨ address.extractLsb' 0 4 ≠ 0 then s.undriven
    else if address.getLsbD 4 then fetchFrame rest.length s
    else requestFrame (bits.length % 8 == 0) (address :: rest) s

/-! ### The second (R178) -/

/-- A count of elapsed seconds one up, staying at its length. -/
def tick (length elapsed : Nat) : Nat := min length (elapsed + 1)

/-- R7, R10: the timers of a channel. -/
def Channel.second (c : Channel) : Channel :=
  { c with gate := c.gate.map fun g => { g with elapsed := tick Config.gateSeconds g.elapsed },
           settlingTimer := c.settlingTimer.map (tick Config.settlingSeconds) }

/-- R107: the jam timer of a drive that is on. -/
def Drive.second {δ : Type} (d : Drive δ) : Drive δ := if d.on then { d with jam := d.jam + 1 } else d

/-- R115, R122: the dwell and the wait of a run. -/
def GaugingUnit.second (g : GaugingUnit) : GaugingUnit :=
  { g with run := { g.run with waitRemaining := g.run.waitRemaining.map fun n => n - 1 },
           dwell := g.dwell.map fun d => { d with elapsed := tick d.length d.elapsed } }

/-- R161: the time in the phase of a pattern that plays. -/
def WarningUnit.second (w : WarningUnit) : WarningUnit :=
  if w.winning = .none then w else { w with phaseElapsed := w.phaseElapsed + 1 }

/-- R178: one second: the seconds count and every running timer one up (LOG 5). -/
def clockSecond (s : State) : State :=
  { s with
    clock := s.clock + 1,
    channels := Vector.ofFn fun i => (s.channel i).second,
    stage := { s.stage with
      interval := { s.stage.interval with elapsed := tick s.stage.interval.length s.stage.interval.elapsed } },
    rating := { s.rating with
      ramp := { s.rating.ramp with elapsed := tick s.rating.ramp.length s.rating.ramp.elapsed } },
    cable := { s.cable with traverse := s.cable.traverse.second, hoist := s.cable.hoist.second },
    gauging := s.gauging.second,
    warning := s.warning.second }

/-! ### Output lines (12.4) -/

/-- The output lines. Data out has no level while it is at high impedance. A drive output that is off is low; one that
is on gives the duty of its periods (LOG 7). -/
structure Lines where
  sdo : Option Level
  attn : Level
  traverseDuty : Option Int
  hoistDuty : Option Int
  traverseDir : Level
  hoistDir : Level
  siren : Level
  beacon : Level
  remote : Level
  deriving DecidableEq, Repr

/-- High while a condition holds. -/
def highWhen (b : Bool) : Level := if b then .high else .low

/-- R190: the output lines at their off levels, while the reset pin is held low. -/
def Lines.off : Lines :=
  { sdo := none, attn := .high, traverseDuty := none, hoistDuty := none, traverseDir := .low, hoistDir := .low,
    siren := .low, beacon := .low, remote := .low }

/-- 12.4, R190: the levels of the output lines between two commands. Select is then high, or low in a period that is
ignored (R184), so data out is at high impedance (R170); what it did in a select period stands in the port's record. -/
def State.lines (s : State) : Lines :=
  if s.resetHeld then Lines.off
  else
    { sdo := none, attn := highWhen (!s.attnLow),
      traverseDuty := if s.cable.traverse.on then some s.cable.traverse.duty else none,
      hoistDuty := if s.cable.hoist.on then some s.cable.hoist.duty else none,
      traverseDir := highWhen (s.cable.traverse.way == .outward),
      hoistDir := highWhen (s.cable.hoist.way == .down),
      siren := highWhen s.warning.siren, beacon := highWhen s.warning.beacon, remote := highWhen s.warning.remote }

/-! ### Meanings -/

/-- RESET (R190). -/
def execReset (pin : ResetPin) (s : State) : Host.Outcome State Fault Refusal :=
  .next (takeReset pin s)

/-- IGNORED_SELECT_PERIOD (R170). -/
def execIgnoredSelectPeriod (bits : List Bool) (s : State) : Host.Outcome State Fault Refusal :=
  onSelectPeriod (selectPeriod bits) s

/-- FRAME_ERROR (R171). -/
def execFrameError (bits : List Bool) (s : State) : Host.Outcome State Fault Refusal :=
  onSelectPeriod (selectPeriod bits) s

/-- OVERRUN (R172). -/
def execOverrun (bits : List Bool) (s : State) : Host.Outcome State Fault Refusal :=
  onSelectPeriod (selectPeriod bits) s

/-- UNKNOWN_REQUEST (R173). -/
def execUnknownRequest (code : Byte) (params : List Byte) (s : State) : Host.Outcome State Fault Refusal :=
  onSelectPeriod (takeRequest code params (ownerOfCode code)) s

/-- FETCH_FRAME (R174). -/
def execFetchFrame (clocked : Nat) (s : State) : Host.Outcome State Fault Refusal :=
  onSelectPeriod (fetchFrame clocked) s

/-- IDENTIFY (R177). -/
def execIdentify (params : List Byte) (s : State) : Host.Outcome State Fault Refusal :=
  onSelectPeriod (takeRequest RequestName.identify.code params identify) s

/-- READ_ATTENTION (R176). -/
def execReadAttention (params : List Byte) (s : State) : Host.Outcome State Fault Refusal :=
  onSelectPeriod (takeRequest RequestName.readAttention.code params readAttention) s

/-- SET_ATTENTION_MASK (R176). -/
def execSetAttentionMask (params : List Byte) (s : State) : Host.Outcome State Fault Refusal :=
  onSelectPeriod (takeRequest RequestName.setAttentionMask.code params setAttentionMask) s

/-- SET_CLOCK (R178). -/
def execSetClock (params : List Byte) (s : State) : Host.Outcome State Fault Refusal :=
  onSelectPeriod (takeRequest RequestName.setClock.code params setClock) s

/-- READ_CLOCK (R178). -/
def execReadClock (params : List Byte) (s : State) : Host.Outcome State Fault Refusal :=
  onSelectPeriod (takeRequest RequestName.readClock.code params readClock) s

/-- READ_STATION (R182). -/
def execReadStation (params : List Byte) (s : State) : Host.Outcome State Fault Refusal :=
  onSelectPeriod (takeRequest RequestName.readStation.code params readStation) s

/-- RESTART (R183). -/
def execRestart (params : List Byte) (s : State) : Host.Outcome State Fault Refusal :=
  onSelectPeriod (takeRequest RequestName.restart.code params restart) s

/-- SET_CURSOR (R45). -/
def execSetCursor (params : List Byte) (s : State) : Host.Outcome State Fault Refusal :=
  onSelectPeriod (takeRequest RequestName.setCursor.code params setCursor) s

/-- WRITE_FIELDS (R46). -/
def execWriteFields (params : List Byte) (s : State) : Host.Outcome State Fault Refusal :=
  onSelectPeriod (takeRequest RequestName.writeFields.code params writeFields) s

/-- READ_ENTRIES (R49). -/
def execReadEntries (params : List Byte) (s : State) : Host.Outcome State Fault Refusal :=
  onSelectPeriod (takeRequest RequestName.readEntries.code params readEntries) s

/-- CLOCK_SECOND (R178). -/
def execClockSecond (s : State) : Host.Outcome State Fault Refusal :=
  unlessHeld clockSecond s

end Sys2Proof.Machine
end

