-- ==== Sys2Proof/Machine/Dispatch.lean ====
section
/-! DEFINITION. The meaning of every command: one arm per constructor of Instr. -/

namespace Sys2Proof.Machine

/-- The effect of a command on everything but the queue. -/
def exec (i : Instr) (s : State) : Host.Outcome State Fault Refusal :=
  match i with
  | .reset pin => Sys2Proof.Machine.execReset pin s
  | .ignoredSelectPeriod bits => Sys2Proof.Machine.execIgnoredSelectPeriod bits s
  | .frameError bits => Sys2Proof.Machine.execFrameError bits s
  | .overrun bits => Sys2Proof.Machine.execOverrun bits s
  | .unknownRequest code params => Sys2Proof.Machine.execUnknownRequest code params s
  | .fetchFrame clocked => Sys2Proof.Machine.execFetchFrame clocked s
  | .identify params => Sys2Proof.Machine.execIdentify params s
  | .readAttention params => Sys2Proof.Machine.execReadAttention params s
  | .setAttentionMask params => Sys2Proof.Machine.execSetAttentionMask params s
  | .setClock params => Sys2Proof.Machine.execSetClock params s
  | .readClock params => Sys2Proof.Machine.execReadClock params s
  | .writeSettings params => Sys2Proof.Machine.execWriteSettings params s
  | .readSettings params => Sys2Proof.Machine.execReadSettings params s
  | .readStation params => Sys2Proof.Machine.execReadStation params s
  | .restart params => Sys2Proof.Machine.execRestart params s
  | .configureChannel params => Sys2Proof.Machine.execConfigureChannel params s
  | .setChannelStage params => Sys2Proof.Machine.execSetChannelStage params s
  | .readChannel params => Sys2Proof.Machine.execReadChannel params s
  | .setVote params => Sys2Proof.Machine.execSetVote params s
  | .setCursor params => Sys2Proof.Machine.execSetCursor params s
  | .writeFields params => Sys2Proof.Machine.execWriteFields params s
  | .readEntries params => Sys2Proof.Machine.execReadEntries params s
  | .retirePoint params => Sys2Proof.Machine.execRetirePoint params s
  | .copyRating params => Sys2Proof.Machine.execCopyRating params s
  | .adoptRating params => Sys2Proof.Machine.execAdoptRating params s
  | .lookup params => Sys2Proof.Machine.execLookup params s
  | .defineShift params => Sys2Proof.Machine.execDefineShift params s
  | .retireShift params => Sys2Proof.Machine.execRetireShift params s
  | .readShifts params => Sys2Proof.Machine.execReadShifts params s
  | .retireVertical params => Sys2Proof.Machine.execRetireVertical params s
  | .homeCarriage params => Sys2Proof.Machine.execHomeCarriage params s
  | .clearFault params => Sys2Proof.Machine.execClearFault params s
  | .setMeter params => Sys2Proof.Machine.execSetMeter params s
  | .startRun params => Sys2Proof.Machine.execStartRun params s
  | .abortRun params => Sys2Proof.Machine.execAbortRun params s
  | .readRun params => Sys2Proof.Machine.execReadRun params s
  | .acceptGauging params => Sys2Proof.Machine.execAcceptGauging params s
  | .defineRule params => Sys2Proof.Machine.execDefineRule params s
  | .armRule params => Sys2Proof.Machine.execArmRule params s
  | .disarmRule params => Sys2Proof.Machine.execDisarmRule params s
  | .acknowledge params => Sys2Proof.Machine.execAcknowledge params s
  | .retireRule params => Sys2Proof.Machine.execRetireRule params s
  | .readRule params => Sys2Proof.Machine.execReadRule params s
  | .quadratureChange channel edge => Sys2Proof.Machine.execQuadratureChange channel edge s
  | .markEdge channel edge => Sys2Proof.Machine.execMarkEdge channel edge s
  | .frequencyPulse channel => Sys2Proof.Machine.execFrequencyPulse channel s
  | .gateCompletion channel => Sys2Proof.Machine.execGateCompletion channel s
  | .settlingTimerExpiry channel => Sys2Proof.Machine.execSettlingTimerExpiry channel s
  | .stageIntervalExpiry => Sys2Proof.Machine.execStageIntervalExpiry s
  | .rampExpiry => Sys2Proof.Machine.execRampExpiry s
  | .adoptionCompletion => Sys2Proof.Machine.execAdoptionCompletion s
  | .clockSecond => Sys2Proof.Machine.execClockSecond s
  | .drivePeriodBoundary => Sys2Proof.Machine.execDrivePeriodBoundary s
  | .traverseCountChange edge => Sys2Proof.Machine.execTraverseCountChange edge s
  | .depthCountChange edge => Sys2Proof.Machine.execDepthCountChange edge s
  | .contactChange contact level => Sys2Proof.Machine.execContactChange contact level s
  | .jam drive => Sys2Proof.Machine.execJam drive s
  | .meterPulse => Sys2Proof.Machine.execMeterPulse s
  | .dwellExpiry => Sys2Proof.Machine.execDwellExpiry s
  | .waitExpiry => Sys2Proof.Machine.execWaitExpiry s
  | .patternPhaseEnd => Sys2Proof.Machine.execPatternPhaseEnd s

end Sys2Proof.Machine
end

