-- ==== Sys2Proof/Machine/Step.lean ====
section
/-! DEFINITION. One step: the command at the front of the queue is taken. -/

namespace Sys2Proof.Machine

/-- The state with another queue. -/
def State.setPending (s : State) (x : List Instr) : State := { s with pending := x }

/-- The command at the front of the queue is carried out on the state with the queue's rest. On an empty queue the
part idles (LOG 3). -/
def step (s : State) : Host.Outcome State Fault Refusal :=
  match s.pending with
  | [] => .next s
  | i :: rest => exec i (s.setPending rest)

/-- The state with the command that a word spells at the front of its queue, unchanged where the word spells none. -/
def State.withFetchWord (s : State) (nbits w : Nat) : State :=
  match decodeTableWord nbits w with
  | some i => s.setPending (i :: s.pending)
  | none => s

end Sys2Proof.Machine
end

