-- ==== Sys2Proof/Safety.lean ====
section
/-! DEFINITION. What counts as a safe state: the laws that the rules say hold at all times, as predicates on State.
The claims say that every step keeps them and that they hold at State.reset. At the end the words the claims use for
answers, frames and channel records. -/

namespace Sys2Proof.Machine

/-! ### The cableway -/

/-- R104: the traverse drive is on only while the Top contact is asserted. -/
def CarryLaw (s : State) : Prop := s.cable.traverse.on = true → s.asserted .top = true

/-- R111: while the effect set holds CableInhibit no drive runs Outward or Down. -/
def InhibitLaw (s : State) : Prop :=
  s.inhibited = true →
    ¬ (s.cable.traverse.on = true ∧ s.cable.traverse.way = .outward) ∧
    ¬ (s.cable.hoist.on = true ∧ s.cable.hoist.way = .down)

/-- R112: while the cableway is not fitted both drives are off and both direction lines hold their Reset level. -/
def StrapLaw (s : State) : Prop :=
  s.fitted = false →
    s.cable.traverse.on = false ∧ s.cable.hoist.on = false ∧
    s.cable.traverse.way = .inward ∧ s.cable.hoist.way = .up

/-- R93: a drive is on or waits for a period boundary. -/
def Drive.active {δ : Type} (d : Drive δ) : Bool := d.on || d.start.isSome

/-- R93: the traverse and hoist drives are not both on, and neither waits to start beside the other. -/
def OneDriveLaw (s : State) : Prop := ¬ (s.cable.traverse.active = true ∧ s.cable.hoist.active = true)

/-- R99 to R105: the carriage state names what is in progress, and nothing is in progress with a drive active. -/
def CarriageLaw (s : State) : Prop :=
  match s.cable.activity with
  | .homing _ => s.cable.state = .homing
  | .moving (.traverseTo _ _) | .moving .goHome => s.cable.state = .traversing
  | .moving (.lowerTo _ _ _ _) => s.cable.state = .lowering
  | .moving (.raiseTo _) | .moving .raiseToTop => s.cable.state = .raising
  | .idle =>
    (s.cable.state = .unhomed ∨ s.cable.state = .parked ∨ s.cable.state = .holding ∨ s.cable.state = .halted) ∧
    s.cable.traverse.active = false ∧ s.cable.hoist.active = false

/-- R121: while the run is Armed the carriage stays Parked. -/
def ArmedLaw (s : State) : Prop := s.run.state = .armed → s.cable.state = .parked

/-! ### The warnings -/

/-- R141, R158, R160, R162, R163: the effect set, the station warning level, the winning pattern, the beacon and the
remote line are those of the states of the sixteen rules. -/
def EffectsLaw (s : State) : Prop :=
  s.warning.effects = formEffectSet s.warning.rules ∧ s.warning.level = warningLevel s.warning.rules ∧
  s.warning.winning = winningPattern s.warning.effects ∧
  s.warning.beacon = (s.warning.rules.toList.any fun r => (r.map Rule.contributing).getD false) ∧
  s.warning.remote = !s.warning.effects.remoteLine.isEmpty

/-- R161: the generator is stopped, with the line off, exactly while no pattern wins, and pattern 1 stays On. -/
def PhaseLaw (s : State) : Prop :=
  (s.warning.winning = .none → s.warning.phase = .off) ∧ (s.warning.winning = .p1 → s.warning.phase = .on)

/-! ### The settings -/

/-- R22, R80, R94, R179: every setting lies in its range and every pair of settings passes its cross-check. -/
def SettingsLaw (t : Settings) : Prop :=
  (∀ x : Setting, x.admits (t.read x) = true) ∧ t.read .stageFloor < t.read .stageCeiling ∧
  t.read .floodCadence ≤ t.read .quietCadence ∧ t.read .spanStart < t.read .spanEnd ∧
  t.read .traverseSlowDuty ≤ t.read .traverseFastDuty

/-! ### Ratings, bands and the section -/

/-- R65: a band in use has its range in order and its shifts within the shift limit. -/
def Band.lawful (limit : Int) (b : Band) : Prop :=
  b.lower < b.upper ∧ -limit ≤ b.target ∧ b.target ≤ limit ∧ -limit ≤ b.applied ∧ b.applied ≤ limit

/-- R65: the bands in use are lawful and do not overlap in stage. -/
def BandsLaw (limit : Int) (t : ShiftTable) : Prop :=
  (∀ i b, t.get i = some b → b.lawful limit) ∧
  ∀ i j b c, i ≠ j → t.get i = some b → t.get j = some c → b.upper ≤ c.lower ∨ c.upper ≤ b.lower

/-- R42: the draft holds at most 48 points and no two with the same stage. -/
def DraftLaw (draft : List Point) : Prop :=
  draft.length ≤ Config.ratingPoints ∧ draft.Pairwise fun p q => p.stage ≠ q.stage

/-- R43: the active rating is empty, or holds 2 to 48 points ascending in stage and in discharge. -/
def ActiveLaw (points : List Point) : Prop :=
  points = [] ∨
    (2 ≤ points.length ∧ points.length ≤ Config.ratingPoints ∧
      points.Pairwise fun p q => p.stage < q.stage ∧ p.discharge < q.discharge)

/-- R44: the cursor points at a slot of its table and holds less than one entry, and no entry of Active. -/
def CursorLaw (c : Cursor) : Prop :=
  c.index < c.table.slots ∧ c.fields.length < c.table.fieldCount ∧ (c.table = .active → c.fields = [])

/-- R79, R80: at most 32 verticals, strictly ascending in distance, within the span. -/
def SectionLaw (t : Settings) (vs : List Vertical) : Prop :=
  vs.length ≤ Config.verticals ∧ vs.Pairwise (fun a b => a.distance < b.distance) ∧
  ∀ v ∈ vs, t.read .spanStart ≤ v.distance ∧ v.distance ≤ t.read .spanEnd

/-! ### Channels, vote and stage record -/

/-- R1, R7, R9, R10: a reading is present exactly in Valid and OutOfRange, Off is the condition of the kind Off, the
gate runs exactly for the kind Frequency, the settling timer runs only for a Settling encoder, and a saturated gate
leaves no Valid reading. -/
def Channel.lawful (c : Channel) : Prop :=
  (c.reading.isSome = true ↔ c.condition = .valid ∨ c.condition = .outOfRange) ∧
  (c.kind = .off ↔ c.condition = .off) ∧ (c.gate.isSome = true ↔ c.kind = .frequency) ∧
  (c.settlingTimer.isSome = true → c.kind = .encoder ∧ c.condition = .settling) ∧
  (c.condition = .valid → c.kind = .frequency → c.lastGate ≠ some Config.gatePulsesMax)

/-- Every channel is lawful. -/
def ChannelsLaw (s : State) : Prop := ∀ i, (s.channel i).lawful

/-- R23, R26: the check mask does not hold the primary; exactly the channels outside the vote are Excluded, with both
counts 0 and no stuck watch; counts are at most 15 and settlements watched at most 255. -/
def VoteLaw (s : State) : Prop :=
  s.stage.setup.checks.getLsbD s.stage.setup.primary.val = false ∧
  (∀ u, s.stage.pendingSetup = some u → u.checks.getLsbD u.primary.val = false) ∧
  ∀ i,
    ((s.vote i).standing = .excluded ↔ s.stage.setup.role i = .neither) ∧
    ((s.vote i).standing = .excluded →
      (s.vote i).disagree = 0 ∧ (s.vote i).agree = 0 ∧ (s.vote i).watch = none) ∧
    (s.vote i).disagree ≤ 15 ∧ (s.vote i).agree ≤ 15 ∧ ∀ w, (s.vote i).watch = some w → w.settlements ≤ 255

/-- R36, R40: a stage is absent exactly with quality None, and a source channel is present exactly with Good and
Failover. -/
def RecordLaw (r : StageRecord) : Prop :=
  (r.stage = none ↔ r.quality = .none) ∧ (r.source.isSome = true ↔ r.quality = .good ∨ r.quality = .failover)

/-! ### The port -/

/-- R172, R173, R174, R175: AnswerReady is in the attention set exactly while the slot is occupied, and the mask never
holds AnswerReady. -/
def PortLaw (s : State) : Prop :=
  s.attends .answerReady = s.port.slot.isSome ∧ holdsReason s.port.mask .answerReady = false

/-! ### Words of the claims -/

/-- R170, R173, R185: the state after a request frame: an answer in the slot, AnswerReady, bit 1 of 11.3, in the
attention set, and data out left at high impedance. -/
def State.answered (s : State) (status : Status) (code : Byte) (body : List Byte) : State :=
  { s with port := { s.port with
      slot := some { status := status, code := code, body := body },
      attention := s.port.attention ||| 0x002,
      sdo := .highImpedance } }

/-- R171, R185: the bytes of the request frame that carries a code and parameters to a unit address; the check byte
makes them sum to 0. -/
def frameBytes (unit : BitVec 3) (code : Byte) (params : List Byte) : List Byte :=
  let opened := [unit ++ (0 : BitVec 5), code, BitVec.ofNat 8 params.length] ++ params
  opened ++ [0 - opened.foldr (· + ·) 0]

/-- R121, R124: the lowest Measure vertical of a section. -/
def FirstMeasured (vs : List Vertical) (i : Nat) (v : Vertical) : Prop :=
  vs[i]? = some v ∧ v.skip = .measure ∧ ∀ j w, j < i → vs[j]? = some w → w.skip = .skip

/-- R121: an Armed run whose trigger is met, with no inhibit present and at least two Measure verticals. -/
def RunReady (s : State) : Prop :=
  s.gauging.run.state = .armed ∧ s.gauging.run.triggerMet = some true ∧ s.warning.effects.cableInhibit = [] ∧
  2 ≤ (s.verticals.filter fun v => v.skip == .measure).length

/-- R100, R104: the carriage stands Parked with the weight up, more than the arrival window short of a vertical. -/
def CanDepart (s : State) (v : Vertical) : Prop :=
  s.cable.state = .parked ∧ s.cable.activity = .idle ∧ s.asserted .top = true ∧ s.position < v.distance - 5

/-- R119, R124, R129: the entries of the Skip verticals of a section beyond one distance and below another, where these
are given, in the order of the section: each with index, distance and the flag Skipped, and no other field. -/
def PassedOver (vs : List Vertical) (beyond below : Option Int) (es : List Entry) : Prop :=
  es.Pairwise (fun a b => a.index < b.index) ∧
  ∀ e : Entry, e ∈ es ↔ ∃ (i : Nat) (v : Vertical), vs[i]? = some v ∧ v.skip = .skip ∧
    (∀ d, beyond = some d → d < v.distance) ∧ (∀ d, below = some d → v.distance < d) ∧
    e = { index := i, distance := v.distance, arrivalStage := none, depthUsed := none, soundedDepth := none,
          points := [], mean := none, discharge := none, dry := false, surfaceOnly := false, noBottom := false,
          bedUpdated := false, skipped := true }

/-- R120, R124: the results that a run which starts goes on from: those of the Armed run, and none where START RUN
replaces the record. -/
def State.startResults (s : State) : List Entry := if s.gauging.run.state = .armed then s.gauging.run.results else []

/-- R123, R124: from s to t a run has become Running and is on its way Outward to the vertical v of index i, with the
Skip verticals that it passes entered. -/
def RunBegins (i : Nat) (v : Vertical) (s t : State) : Prop :=
  (∃ skipped, t.gauging.run.results = s.startResults ++ skipped ∧
    PassedOver t.verticals (s.startResults.getLast?.map fun e => e.distance) (some v.distance) skipped) ∧
  t.gauging.run.state = .running ∧ t.gauging.run.step = some .traverse ∧ t.gauging.run.current = some i ∧
  t.gauging.run.startTime = some s.clock ∧ t.gauging.run.startStage = t.stage.record.stage ∧
  t.gauging.run.triggerMet = none ∧ t.gauging.run.waitRemaining = none ∧ t.attends .runStarted = true ∧
  t.cable.state = .traversing ∧ t.cable.activity = .moving (.traverseTo v.distance .outward) ∧
  t.cable.traverse.start = some .outward ∧ t.cable.hoist.on = false

/-- R2, R95, R96: a count moved by a change of one quadrature line: up when line A leads, else down. -/
def movedCount (e : QuadratureEdge) (n : Word) : Word :=
  if (e.changed = .lineA ∧ e.a ≠ e.b) ∨ (e.changed = .lineB ∧ e.a = e.b) then n + 1 else n - 1

/-- R12: a channel record replaced, with ChannelChanged, bit 3 of 11.3, raised exactly when the condition changed. -/
def State.withChannel (s : State) (i : ChannelNumber) (c : Channel) : State :=
  { s with
    channels := s.channels.set i.val c i.isLt,
    port := { s.port with
      attention := if c.condition = (s.channels.get i).condition then s.port.attention
        else s.port.attention ||| 0x008 } }

/-- R42, R56: the draft replaced; an adoption in flight ends with DraftChanged and RatingRejected, bit 6 of 11.3, is
raised. -/
def State.withDraft (s : State) (draft : List Point) : State :=
  if s.rating.adoption.request = none then { s with rating := { s.rating with draft := draft } }
  else
    { s with
      rating := { s.rating with
        draft := draft, adoption := { request := none, lastOutcome := .rejectedDraftChanged } },
      port := { s.port with attention := s.port.attention ||| 0x040 } }

end Sys2Proof.Machine
end

