-- ==== Sys2Proof/WellFormed.lean ====
section
/-! DEFINITION. Which terms of Instr stand for a command that can come: a request frame of at most 128 parameter
bytes (R185), a code that names no request for UNKNOWN_REQUEST, a request frame for FRAME_ERROR and OVERRUN. -/

namespace Sys2Proof

open Sys2Proof.Machine

/-- The request a request command makes, with its parameter bytes. -/
def Instr.request : Instr → Option (RequestName × List Byte)
  | .identify p => some (.identify, p)
  | .readAttention p => some (.readAttention, p)
  | .setAttentionMask p => some (.setAttentionMask, p)
  | .setClock p => some (.setClock, p)
  | .readClock p => some (.readClock, p)
  | .writeSettings p => some (.writeSettings, p)
  | .readSettings p => some (.readSettings, p)
  | .readStation p => some (.readStation, p)
  | .restart p => some (.restart, p)
  | .configureChannel p => some (.configureChannel, p)
  | .setChannelStage p => some (.setChannelStage, p)
  | .readChannel p => some (.readChannel, p)
  | .setVote p => some (.setVote, p)
  | .setCursor p => some (.setCursor, p)
  | .writeFields p => some (.writeFields, p)
  | .readEntries p => some (.readEntries, p)
  | .retirePoint p => some (.retirePoint, p)
  | .copyRating p => some (.copyRating, p)
  | .adoptRating p => some (.adoptRating, p)
  | .lookup p => some (.lookup, p)
  | .defineShift p => some (.defineShift, p)
  | .retireShift p => some (.retireShift, p)
  | .readShifts p => some (.readShifts, p)
  | .retireVertical p => some (.retireVertical, p)
  | .homeCarriage p => some (.homeCarriage, p)
  | .clearFault p => some (.clearFault, p)
  | .setMeter p => some (.setMeter, p)
  | .startRun p => some (.startRun, p)
  | .abortRun p => some (.abortRun, p)
  | .readRun p => some (.readRun, p)
  | .acceptGauging p => some (.acceptGauging, p)
  | .defineRule p => some (.defineRule, p)
  | .armRule p => some (.armRule, p)
  | .disarmRule p => some (.disarmRule, p)
  | .acknowledge p => some (.acknowledge, p)
  | .retireRule p => some (.retireRule, p)
  | .readRule p => some (.readRule, p)
  | _ => none

/-- The request command that makes a request. -/
def Instr.ofRequest (r : RequestName) (p : List Byte) : Instr :=
  match r with
  | .identify => .identify p
  | .readAttention => .readAttention p
  | .setAttentionMask => .setAttentionMask p
  | .setClock => .setClock p
  | .readClock => .readClock p
  | .writeSettings => .writeSettings p
  | .readSettings => .readSettings p
  | .readStation => .readStation p
  | .restart => .restart p
  | .configureChannel => .configureChannel p
  | .setChannelStage => .setChannelStage p
  | .readChannel => .readChannel p
  | .setVote => .setVote p
  | .setCursor => .setCursor p
  | .writeFields => .writeFields p
  | .readEntries => .readEntries p
  | .retirePoint => .retirePoint p
  | .copyRating => .copyRating p
  | .adoptRating => .adoptRating p
  | .lookup => .lookup p
  | .defineShift => .defineShift p
  | .retireShift => .retireShift p
  | .readShifts => .readShifts p
  | .retireVertical => .retireVertical p
  | .homeCarriage => .homeCarriage p
  | .clearFault => .clearFault p
  | .setMeter => .setMeter p
  | .startRun => .startRun p
  | .abortRun => .abortRun p
  | .readRun => .readRun p
  | .acceptGauging => .acceptGauging p
  | .defineRule => .defineRule p
  | .armRule => .armRule p
  | .disarmRule => .disarmRule p
  | .acknowledge => .acknowledge p
  | .retireRule => .retireRule p
  | .readRule => .readRule p

/-- The commands that carry the bits or the code of a select period as they come: the part itself judges them. -/
def Instr.rawFrame : Instr → Bool
  | .ignoredSelectPeriod _ => true
  | .frameError _ => true
  | .overrun _ => true
  | .unknownRequest _ _ => true
  | _ => false

/-- R185: whether some bits open with the address byte of a request frame, for some unit address. -/
def opensRequest (bits : List Bool) : Bool :=
  match takeBytes bits with
  | [] => false
  | address :: _ => address.extractLsb' 0 5 == 0

/-- The checks of a command. -/
def Instr.wellFormed (i : Instr) : Bool :=
  match i with
  | .unknownRequest code params => (RequestName.ofCode code).isNone && decide (params.length ≤ 128)
  | .frameError bits => opensRequest bits && !wellFormedFrame (bits.length % 8 == 0) (takeBytes bits)
  | .overrun bits => opensRequest bits
  | i =>
    match i.request with
    | some (_, params) => decide (params.length ≤ 128)
    | none => true

end Sys2Proof
end

