-- ==== Sys2Proof/Certificates/Slice0/Obligations.lean ====
section
/-! DEFINITION. The statements for the provers: what each command does, what it leaves, and what every step keeps. -/

open Sys2Proof Sys2Proof.Machine

/-! ### The queue -/

/-- A step carries out the command at the front of the queue on the state with the queue's rest. -/
def Obligations.StepTakesTheFrontCommand : Prop :=
  ∀ (c : Instr) (rest : List Instr) (s : State), s.pending = c :: rest → step s = exec c { s with pending := rest }

/-- Every command answers a next state, leaves the queue, and never runs the count of free values back; with an empty
queue the part idles (LOG 3, LOG 9: the model's choices). -/
def Obligations.EveryCommandCompletes : Prop :=
  (∀ (c : Instr) (s : State), ∃ t, exec c s = .next t ∧ t.pending = s.pending ∧ s.freeReads ≤ t.freeReads) ∧
  ∀ s : State, s.pending = [] → step s = .next s

/-! ### Reset -/

/-- RESET (R190): the pin that rises, and the pin taken low, give every record its Reset value, with the straps, contact
levels and mark line levels that the rise finds or that stood before. The end of Reset starts no mark filter (R19). A
select period under way when the pin rises, with the select line low, is to be ignored (R184).
While the pin is held low every command but RESET changes nothing. The model's choices in it: the pins of `State.reset`
(LOG 1) and its own fields (LOG 2, LOG 23), that a channel keeps the level of its mark line (LOG 6), what stands while
the pin is held (LOG 8), that what data out did is kept (LOG 18). -/
def Obligations.ResetGivesEveryResetValue : Prop :=
  (∀ (pin : ResetPin) (s : State), ∃ t, exec (.reset pin) s = .next t ∧
    let pins : ResetPins := match pin with
      | .high pins => pins
      | .low => { unitAddress := s.port.unitAddress, cablewayFitted := s.port.cablewayFitted,
                  contacts := s.cable.contacts, marks := Vector.ofFn fun i => (s.channels.get i).markLine,
                  select := .high }
    t.resetHeld = decide (pin = .low) ∧
    t.port = { unitAddress := pins.unitAddress, cablewayFitted := pins.cablewayFitted, slot := none,
               attention := 0x001, mask := 0xFFD, cursor := { table := .draft, index := 0, fields := [] },
               sdo := .highImpedance, ignoring := decide (pins.select = .low) } ∧
    t.clock = 0 ∧ (∀ x : Setting, t.settings.read x = x.default) ∧
    (∀ i, t.channels.get i =
      { kind := .off, scale := 1000, offset := 0, mark := none, condition := .off, reading := none,
        readingTime := 0, lastMark := none, count := 0, gate := none, lastGate := none, settlingCount := 0,
        settlingTimer := none, markLine := pins.marks.get i, markLevel := none }) ∧
    t.stage.interval = { length := 900, cadence := .quiet, elapsed := 0 } ∧
    t.stage.setup = { primary := 0, checks := 0 } ∧ t.stage.pendingSetup = none ∧
    (∀ i, t.stage.votes.get i =
      { standing := if i = 0 then .candidate else .excluded, disagree := 0, agree := 0, watch := none }) ∧
    t.stage.record = { sequence := 0, stage := none, source := none, quality := .none, rate := 0, trend := .steady,
                       time := 0, cadence := .quiet } ∧
    t.stage.heldCount = 0 ∧
    t.rating.draft = [] ∧ t.rating.active = { points := [], number := 0, effectiveFrom := 0 } ∧
    t.rating.adoption = { request := none, lastOutcome := .absent } ∧ (∀ i, t.rating.bands.get i = none) ∧
    t.rating.ramp = { length := 300, elapsed := 0 } ∧ t.verticals = [] ∧
    t.cable.state = .unhomed ∧ t.cable.traverseCount = 0 ∧ t.cable.depthCount = 0 ∧
    t.cable.contacts = pins.contacts ∧ t.cable.traverse.on = false ∧ t.cable.traverse.way = .inward ∧
    t.cable.traverse.start = none ∧ t.cable.hoist.on = false ∧ t.cable.hoist.way = .up ∧
    t.cable.hoist.start = none ∧ t.cable.activity = .idle ∧ t.cable.lastFault = none ∧
    t.gauging.run = RunRecord.none ∧ t.gauging.nextId = 1 ∧ t.gauging.visit = [] ∧ t.gauging.dwell = none ∧
    t.gauging.meter = { pulsesPerRevolution := 1, offset := 15, slope := 680, minimumRevolutions := 3 } ∧
    (∀ i, t.warning.rules.get i = none) ∧ t.warning.effects = EffectSet.empty ∧ t.warning.level = 0 ∧
    t.warning.winning = .none ∧ t.warning.phase = .off ∧ t.warning.beacon = false ∧ t.warning.remote = false ∧
    t.pending = s.pending) ∧
  (∀ (c : Instr) (s : State), s.resetHeld = true → (∀ pin, c ≠ .reset pin) → exec c s = .next s) ∧
  exec (.reset (.high ResetPins.atReset)) State.reset = .next State.reset

/-- The state after reset satisfies every law of the step invariants. -/
def Obligations.ResetStateIsLawful : Prop :=
  CarryLaw State.reset ∧ InhibitLaw State.reset ∧ StrapLaw State.reset ∧ OneDriveLaw State.reset ∧
  CarriageLaw State.reset ∧ ArmedLaw State.reset ∧ EffectsLaw State.reset ∧ PhaseLaw State.reset ∧
  SettingsLaw State.reset.settings ∧ BandsLaw (State.reset.setting .shiftLimit) State.reset.rating.bands ∧
  DraftLaw State.reset.rating.draft ∧ ActiveLaw State.reset.rating.active.points ∧
  CursorLaw State.reset.port.cursor ∧ SectionLaw State.reset.settings State.reset.verticals ∧
  ChannelsLaw State.reset ∧ VoteLaw State.reset ∧ RecordLaw State.reset.stage.record ∧ PortLaw State.reset

/-! ### What every step keeps -/

/-- R104: every step keeps the carry law. -/
def Obligations.StepKeepsTheCarryLaw : Prop :=
  ∀ s t : State, CarryLaw s → step s = .next t → CarryLaw t

/-- R111: every step keeps the inhibit law. -/
def Obligations.StepKeepsTheInhibitLaw : Prop :=
  ∀ s t : State, InhibitLaw s → step s = .next t → InhibitLaw t

/-- R112: every step keeps an unfitted cableway still; the straps change only at the end of Reset. -/
def Obligations.StepKeepsTheStraps : Prop :=
  (∀ s t : State, StrapLaw s → step s = .next t → StrapLaw t) ∧
  ∀ (c : Instr) (s t : State), (∀ pins, c ≠ .reset (.high pins)) → exec c s = .next t →
    t.port.unitAddress = s.port.unitAddress ∧ t.port.cablewayFitted = s.port.cablewayFitted

/-- R93: no step leaves both drives on or commanded. -/
def Obligations.StepKeepsOneDrive : Prop :=
  ∀ s t : State, OneDriveLaw s → step s = .next t → OneDriveLaw t

/-- R99 to R105, R121: every step keeps the carriage state in agreement with what is in progress, and the carriage of
an Armed run Parked. -/
def Obligations.StepKeepsTheCarriageLaw : Prop :=
  ∀ s t : State, CarriageLaw s → ArmedLaw s → step s = .next t → CarriageLaw t ∧ ArmedLaw t

/-- R141, R158 to R163: every step keeps the effect set, the level, the winning pattern, the beacon and the remote
line those of the rules. -/
def Obligations.StepKeepsTheEffects : Prop :=
  ∀ s t : State, EffectsLaw s → PhaseLaw s → step s = .next t → EffectsLaw t ∧ PhaseLaw t

/-- R65, R75, R179: every step keeps the settings in their ranges and cross-checks, and the bands lawful. -/
def Obligations.StepKeepsSettingsAndBands : Prop :=
  ∀ s t : State, SettingsLaw s.settings → BandsLaw (s.setting .shiftLimit) s.rating.bands → step s = .next t →
    SettingsLaw t.settings ∧ BandsLaw (t.setting .shiftLimit) t.rating.bands

/-- R42, R43, R44: every step keeps the draft, the active rating and the cursor within their rules. -/
def Obligations.StepKeepsTheRatings : Prop :=
  ∀ s t : State, DraftLaw s.rating.draft → ActiveLaw s.rating.active.points → CursorLaw s.port.cursor →
    step s = .next t →
    DraftLaw t.rating.draft ∧ ActiveLaw t.rating.active.points ∧ CursorLaw t.port.cursor

/-- R79, R80: every step keeps the verticals ascending, within the span and at most 32. -/
def Obligations.StepKeepsTheSection : Prop :=
  ∀ s t : State, CursorLaw s.port.cursor → SectionLaw s.settings s.verticals → step s = .next t →
    CursorLaw t.port.cursor ∧ SectionLaw t.settings t.verticals

/-- R1, R7, R9, R10: every step keeps each channel's condition, reading, gate and timer in agreement. -/
def Obligations.StepKeepsTheChannels : Prop :=
  ∀ s t : State, ChannelsLaw s → step s = .next t → ChannelsLaw t

/-- R23, R26, R36, R40: every step keeps the check mask off the primary, the channels outside the vote Excluded with
their counts at 0, the stage absent exactly with quality None and a source exactly with Good or Failover. -/
def Obligations.StepKeepsTheVoteAndTheRecord : Prop :=
  (∀ s t : State, VoteLaw s → step s = .next t → VoteLaw t) ∧
  ∀ s t : State, RecordLaw s.stage.record → step s = .next t → RecordLaw t.stage.record

/-- R172 to R175: every step keeps AnswerReady in the set exactly while the slot is occupied, and out of the mask. -/
def Obligations.StepKeepsTheSlot : Prop :=
  ∀ s t : State, PortLaw s → step s = .next t → PortLaw t

/-! ### Select periods and frames -/

/-- R170 to R173: IGNORED_SELECT_PERIOD changes nothing, with data out at high impedance; a frame that is not well
formed is refused with FrameError, and a code that names no request with UnknownRequest, and nothing else changes;
while the slot is occupied a request frame, well formed or not, only raises Overrun (bit 2). R184: the select period
that was under way as Reset ended is ignored, whatever it carries, and it alone (LOG 17: the model's reading of the
rows). -/
def Obligations.PeriodsWithoutARequestAndOverruns : Prop :=
  (∀ (bytes : List Byte) (tail : List Bool) (s : State), s.resetHeld = false → s.port.ignoring = false →
    tail.length < 8 →
    (∀ a ∈ bytes.head?, a.extractLsb' 5 3 ≠ s.port.unitAddress ∨ a.extractLsb' 0 4 ≠ 0) →
    exec (.ignoredSelectPeriod (bitsOf bytes ++ tail)) s =
      .next { s with port := { s.port with sdo := .highImpedance } }) ∧
  (∀ (rest : List Byte) (tail : List Bool) (s : State), s.resetHeld = false → s.port.ignoring = false →
    s.port.slot = none →
    tail.length < 8 →
    let bytes := (s.port.unitAddress ++ (0 : BitVec 5)) :: rest
    (tail ≠ [] ∨ bytes.length < 3 ∨ 128 < (bytes.getD 2 0).toNat ∨ bytes.length ≠ (bytes.getD 2 0).toNat + 4 ∨
      bytes.foldr (· + ·) 0 ≠ 0) →
    exec (.frameError (bitsOf bytes ++ tail)) s = .next (s.answered .refused (bytes.getD 1 0) [1, 0])) ∧
  (∀ (code : Byte) (params : List Byte) (s : State), s.resetHeld = false → s.port.ignoring = false →
    s.port.slot = none →
    params.length ≤ 128 → (∀ r : RequestName, r.code ≠ code) →
    exec (.unknownRequest code params) s = .next (s.answered .refused code [2, 0])) ∧
  (∀ (s : State), s.resetHeld = false → s.port.ignoring = false → s.port.slot.isSome = true →
    let t := { s with port := { s.port with attention := s.port.attention ||| 0x004, sdo := .highImpedance } }
    (∀ (rest : List Byte) (tail : List Bool), tail.length < 8 →
      exec (.overrun (bitsOf ((s.port.unitAddress ++ (0 : BitVec 5)) :: rest) ++ tail)) s = .next t) ∧
    (∀ (r : RequestName) (params : List Byte), exec (Instr.ofRequest r params) s = .next t) ∧
    ∀ (code : Byte) (params : List Byte), exec (.unknownRequest code params) s = .next t) ∧
  ∀ (s : State), s.resetHeld = false → s.port.ignoring = true →
    let t := { s with port := { s.port with sdo := .highImpedance, ignoring := false } }
    (∀ bits : List Bool, exec (.ignoredSelectPeriod bits) s = .next t ∧ exec (.frameError bits) s = .next t ∧
      exec (.overrun bits) s = .next t) ∧
    (∀ (r : RequestName) (params : List Byte), exec (Instr.ofRequest r params) s = .next t) ∧
    (∀ (code : Byte) (params : List Byte), exec (.unknownRequest code params) s = .next t) ∧
    ∀ n : Nat, exec (.fetchFrame n) s = .next t

/-- R170, R171, R173: the bits of a well-formed frame do what the request they carry does, whichever of the rows
that carry bits brings them (LOG 17: the model's reading of those rows). -/
def Obligations.FramesCarryTheirRequests : Prop :=
  ∀ (r : RequestName) (params : List Byte) (s : State), params.length ≤ 128 →
    let bits := bitsOf (frameBytes s.port.unitAddress r.code params)
    exec (.overrun bits) s = exec (Instr.ofRequest r params) s ∧
    exec (.frameError bits) s = exec (Instr.ofRequest r params) s ∧
    exec (.ignoredSelectPeriod bits) s = exec (Instr.ofRequest r params) s

/-- R174: FETCH_FRAME sends fill, status, code, length, body and the check byte, then zeros; the answer leaves the
slot, with AnswerReady cleared, exactly when every byte through the check byte was clocked. What data out did is
kept in `sdo` (LOG 18: the model's choice). -/
def Obligations.FetchFrameSendsTheAnswer : Prop :=
  (∀ (n : Nat) (a : Answer) (s : State), s.resetHeld = false → s.port.ignoring = false → s.port.slot = some a →
    let sent := [a.status.code, a.code, BitVec.ofNat 8 a.body.length] ++ a.body
    let bytes := [0] ++ sent ++ [0 - sent.foldr (· + ·) 0]
    exec (.fetchFrame n) s = .next { s with port := { s.port with
      sdo := .driven ((bytes ++ List.replicate n 0).take n),
      slot := if bytes.length ≤ n then none else some a,
      attention := if bytes.length ≤ n then s.port.attention &&& 0xFFD else s.port.attention } }) ∧
  ∀ (n : Nat) (s : State), s.resetHeld = false → s.port.ignoring = false → s.port.slot = none →
    exec (.fetchFrame n) s = .next { s with port := { s.port with sdo := .driven (List.replicate n 0) } }

/-- R173: a request that is refused changes no state but the slot; WRITE FIELDS is left out (R47). R173, R186: a length
that fits none of the forms of a request refuses it with BadField, detail 0, before any other check (LOG 33), an
Immediate START RUN having two forms (LOG 13): the model's inferences. -/
def Obligations.RefusedRequestsChangeNothing : Prop :=
  (∀ (r : RequestName) (params : List Byte) (s t : State) (a : Answer), r ≠ .writeFields → s.resetHeld = false →
    s.port.slot = none → exec (Instr.ofRequest r params) s = .next t → t.port.slot = some a →
    a.status = .refused →
    t = s.answered a.status a.code a.body ∧ a.code = r.code ∧ a.body.length = 2) ∧
  ∀ (r : RequestName) (params : List Byte) (s : State), s.resetHeld = false → s.port.ignoring = false →
    s.port.slot = none → params.length ≤ 128 →
    let n := params.length
    let fits : Prop := match r with
      | .identify | .readAttention | .readClock | .readStation | .restart | .copyRating | .readShifts
      | .homeCarriage | .clearFault | .abortRun => n = 0
      | .setAttentionMask | .readRule => n = 0 ∨ n = 4
      | .setClock | .readChannel | .readEntries | .retirePoint | .retireShift | .retireVertical | .acceptGauging
      | .armRule | .disarmRule | .acknowledge | .retireRule => n = 4
      | .setVote | .setCursor => n = 0 ∨ n = 8
      | .setChannelStage | .lookup | .readRun => n = 8
      | .adoptRating => n = 12
      | .startRun => n = 4 ∨ n = 12
      | .setMeter => n = 0 ∨ n = 16
      | .defineShift => n = 16
      | .configureChannel => n = 24
      | .defineRule => n = 40
      | .writeSettings => 8 ≤ n ∧ n ≤ 64 ∧ n % 8 = 0
      | .readSettings => n ≤ 64 ∧ n % 4 = 0
      | .writeFields => True
    ¬ fits → exec (Instr.ofRequest r params) s = .next (s.answered .refused r.code [3, 0])

/-! ### Frames of the events -/

/-- The cableway and run events leave the clock, the settings, the channels, the stage block, the ratings, the
warnings, the port but its attention set, the contacts but the one that changes, the fixed fields of the verticals
and the meter. R12: the channel events change one channel's record and, exactly when its condition changes,
ChannelChanged. -/
def Obligations.LineEventsLeaveTheRest : Prop :=
  (∀ (c : Instr) (s t : State),
    (c = .drivePeriodBoundary ∨ (∃ e, c = .traverseCountChange e) ∨ (∃ e, c = .depthCountChange e) ∨
      (∃ k v, c = .contactChange k v) ∨ (∃ d, c = .jam d) ∨ c = .meterPulse ∨ c = .dwellExpiry ∨
      c = .waitExpiry) →
    exec c s = .next t →
    t.clock = s.clock ∧ t.settings = s.settings ∧ t.channels = s.channels ∧ t.stage = s.stage ∧
    t.rating = s.rating ∧ t.warning = s.warning ∧ t.freeReads = s.freeReads ∧ t.pending = s.pending ∧
    t.resetHeld = s.resetHeld ∧ t.port = { s.port with attention := t.port.attention } ∧
    (∀ k, (∀ v, c ≠ .contactChange k v) → levelAt t.cable.contacts k = levelAt s.cable.contacts k) ∧
    (t.verticals.map fun v => (v.distance, v.plan, v.skip)) =
      (s.verticals.map fun v => (v.distance, v.plan, v.skip)) ∧
    t.gauging.meter = s.gauging.meter ∧ t.gauging.nextId = s.gauging.nextId) ∧
  ∀ (i : ChannelNumber) (c : Instr) (s : State),
    ((∃ e, c = .quadratureChange i e) ∨ (∃ e, c = .markEdge i e) ∨ c = .frequencyPulse i ∨
      c = .gateCompletion i ∨ c = .settlingTimerExpiry i) →
    ∃ k : Channel, exec c s = .next (s.withChannel i k) ∧ k.kind = (s.channels.get i).kind ∧
      k.scale = (s.channels.get i).scale ∧ k.offset = (s.channels.get i).offset ∧ k.mark = (s.channels.get i).mark

/-! ### The port's own requests -/

/-- R176 to R178: IDENTIFY answers the identity and the straps, READ CLOCK the seconds count, SET CLOCK the old count
and the new; READ ATTENTION answers the set and the mask and removes what it returned; SET ATTENTION MASK sets the mask
to any set without AnswerReady and leaves the attention set. -/
def Obligations.PortRequestsAnswerAndSet : Prop :=
  ∀ (s : State), s.resetHeld = false → s.port.ignoring = false → s.port.slot = none →
    exec (.identify []) s = .next (s.answered .done 0x01
      [0x0B, 0x62, 0x01, 0xAE, 1, s.port.unitAddress.setWidth 8, if s.port.cablewayFitted = .high then 1 else 0,
       4, 48, 8, 32, 16, 35]) ∧
    exec (.readClock []) s = .next (s.answered .done 0x05 (beWord s.clock)) ∧
    (∀ count : Word, exec (.setClock (beWord count)) s =
      .next (({ s with clock := count } : State).answered .done 0x04 (beWord s.clock ++ beWord count))) ∧
    exec (.readAttention []) s = .next (({ s with port := { s.port with attention := 0 } } : State).answered .done 0x02
      (be2 s.port.attention.toNat ++ be2 s.port.mask.toNat)) ∧
    (∀ m : BitVec 12, m.getLsbD 1 = false →
      exec (.setAttentionMask (beWord (m.setWidth 32))) s =
        .next (({ s with port := { s.port with mask := m } } : State).answered .done 0x03
          (be2 m.toNat ++ be2 s.port.attention.toNat))) ∧
    exec (.setAttentionMask []) s =
      .next (s.answered .done 0x03 (be2 s.port.mask.toNat ++ be2 s.port.attention.toNat)) ∧
    ∀ w : Word, (4096 ≤ w.toNat ∨ w.getLsbD 1 = true) →
      exec (.setAttentionMask (beWord w)) s = .next (s.answered .refused 0x03 [3, 0])

/-- R178: a second moves the seconds count, and every timer that runs, one up (LOG 5: whole seconds, each timer
staying at its length until its expiry); nothing else changes but the jam timers and the time in a phase. -/
def Obligations.SecondMovesTheTimers : Prop :=
  ∀ (s : State), s.resetHeld = false → ∃ t, exec .clockSecond s = .next t ∧
    t.clock = s.clock + 1 ∧ t.port = s.port ∧ t.settings = s.settings ∧ t.verticals = s.verticals ∧
    t.pending = s.pending ∧ t.freeReads = s.freeReads ∧ t.resetHeld = s.resetHeld ∧
    (∀ i, t.channels.get i = { s.channels.get i with
      gate := (s.channels.get i).gate.map fun g => { g with elapsed := min 10 (g.elapsed + 1) },
      settlingTimer := (s.channels.get i).settlingTimer.map fun e => min 10 (e + 1) }) ∧
    t.stage = { s.stage with
      interval := { s.stage.interval with elapsed := min s.stage.interval.length (s.stage.interval.elapsed + 1) } } ∧
    t.rating = { s.rating with
      ramp := { s.rating.ramp with elapsed := min s.rating.ramp.length (s.rating.ramp.elapsed + 1) } } ∧
    t.cable = { s.cable with
      traverse := { s.cable.traverse with
        jam := if s.cable.traverse.on = true then s.cable.traverse.jam + 1 else s.cable.traverse.jam },
      hoist := { s.cable.hoist with
        jam := if s.cable.hoist.on = true then s.cable.hoist.jam + 1 else s.cable.hoist.jam } } ∧
    t.gauging = { s.gauging with
      run := { s.gauging.run with waitRemaining := s.gauging.run.waitRemaining.map fun n => n - 1 },
      dwell := s.gauging.dwell.map fun d => { d with elapsed := min d.length (d.elapsed + 1) } } ∧
    t.warning = { s.warning with
      phaseElapsed := if s.warning.winning = .none then s.warning.phaseElapsed else s.warning.phaseElapsed + 1 }

/-- R179, R180: WRITE SETTINGS with 1 to 8 pairs of different settings that leave every range and cross-check holding
applies them all and answers the pairs. R11, R180: a written floor or ceiling tests every channel that shows a reading
at once. R179: a request that fails a check is refused at the first it fails, in the order of the table; that of several
pairs which fail one check the first is reported is the model's choice (LOG 31). -/
def Obligations.WriteSettingsAppliesEveryPair : Prop :=
  (∀ (pairs : List (Setting × Int)) (s : State), s.resetHeld = false → s.port.ignoring = false →
    s.port.slot = none → 1 ≤ pairs.length →
    pairs.length ≤ 8 → (pairs.map fun p => p.1).Nodup →
    let u := pairs.foldl (fun u p => u.write p.1 p.2) s.settings
    SettingsLaw u →
    (∀ v ∈ s.verticals, u.read .spanStart ≤ v.distance ∧ v.distance ≤ u.read .spanEnd) →
    (∀ i b, s.rating.bands.get i = some b →
      -u.read .shiftLimit ≤ b.target ∧ b.target ≤ u.read .shiftLimit ∧
      -u.read .shiftLimit ≤ b.applied ∧ b.applied ≤ u.read .shiftLimit) →
    (s.cable.state = .unhomed ∨ s.cable.state = .parked ∨ s.cable.state = .halted ∨
      ∀ x ∈ [Setting.traverseCountsPerMetre, .hoistCountsPerMetre, .homeOffset], u.read x = s.settings.read x) →
    ∃ t, exec (.writeSettings (paramBytes (pairs.flatMap fun p =>
        [BitVec.ofNat 32 p.1.id, BitVec.ofInt 32 p.2]))) s = .next t ∧
      t.settings = u ∧
      t.port.slot =
        some { status := .done, code := 0x06, body := pairs.flatMap fun p => BitVec.ofNat 8 p.1.id :: be4 p.2 } ∧
      t.clock = s.clock ∧ t.stage = s.stage ∧ t.rating = s.rating ∧ t.warning = s.warning ∧
      t.port.mask = s.port.mask ∧ t.port.cursor = s.port.cursor ∧ t.cable.contacts = s.cable.contacts ∧
      ∀ i, (t.channels.get i).kind = (s.channels.get i).kind ∧
        (t.channels.get i).reading = (s.channels.get i).reading) ∧
  (∀ (x : Setting) (v : Int) (s : State), (x = .stageFloor ∨ x = .stageCeiling) → s.resetHeld = false →
    s.port.ignoring = false → s.port.slot = none →
    ChannelsLaw s → SettingsLaw s.settings → SettingsLaw (s.settings.write x v) → s.settings.read x ≠ v →
    SectionLaw s.settings s.verticals → BandsLaw (s.setting .shiftLimit) s.rating.bands →
    ∃ t, exec (.writeSettings (paramBytes [BitVec.ofNat 32 x.id, BitVec.ofInt 32 v])) s = .next t ∧
      (∀ i r, (s.channels.get i).reading = some r →
        (t.channels.get i).condition =
          if (s.channels.get i).kind = .frequency ∧ (s.channels.get i).lastGate = some 1000000 then .outOfRange
          else if t.settings.read .stageFloor ≤ r ∧ r ≤ t.settings.read .stageCeiling then .valid
          else .outOfRange) ∧
      (t.attends .channelChanged = true ↔
        s.attends .channelChanged = true ∨ ∃ i, (t.channels.get i).condition ≠ (s.channels.get i).condition)) ∧
  ∀ (s : State), s.resetHeld = false → s.port.ignoring = false → s.port.slot = none →
    let refused := fun (params : List Byte) (why : Byte) (detail : Nat) =>
      exec (.writeSettings params) s = .next (s.answered .refused 0x06 [why, BitVec.ofNat 8 detail])
    -- check 1
    (∀ bytes : List Byte, bytes.length ≤ 128 → bytes = [] ∨ 64 < bytes.length ∨ bytes.length % 8 ≠ 0 →
      refused bytes 3 0) ∧
    -- checks 2 and 3
    (∀ (pairs : List (Word × Word)) (k : Nat) (p : Word × Word), pairs.length ≤ 8 → pairs[k]? = some p →
      let params := paramBytes (pairs.flatMap fun q => [q.1, q.2])
      let named := fun (q : Word × Word) => 1 ≤ q.1.toInt ∧ q.1.toInt ≤ 35
      (¬ named p → (∀ q ∈ pairs.take k, named q) → refused params 3 k) ∧
      ((∀ q ∈ pairs, named q) → (∃ q ∈ pairs.take k, q.1 = p.1) → ((pairs.take k).map fun q => q.1).Nodup →
        refused params 3 k)) ∧
    ∀ pairs : List (Setting × Word), 1 ≤ pairs.length → pairs.length ≤ 8 → (pairs.map fun p => p.1).Nodup →
      let params := paramBytes (pairs.flatMap fun p => [BitVec.ofNat 32 p.1.id, p.2])
      let u := pairs.foldl (fun u p => u.write p.1 p.2.toInt) s.settings
      let admitted := fun (p : Setting × Word) => p.1.admits p.2.toInt = true
      -- check 4
      (∀ (k : Nat) (p : Setting × Word), pairs[k]? = some p → ¬ admitted p → (∀ q ∈ pairs.take k, admitted q) →
        refused params 3 k) ∧
      -- checks 5 to 11; a cross-check blames the pair of its first setting if written, else of its second
      ((∀ p ∈ pairs, admitted p) →
        let written := fun (x : Setting) (k : Nat) => ∃ w, pairs[k]? = some (x, w)
        let blamed := fun (x y : Setting) (k : Nat) => written x k ∨ (∀ j, ¬ written x j) ∧ written y k
        let stages := u.read .stageFloor < u.read .stageCeiling
        let cadences := u.read .floodCadence ≤ u.read .quietCadence
        let span := u.read .spanStart < u.read .spanEnd
        let duties := u.read .traverseSlowDuty ≤ u.read .traverseFastDuty
        let inside := ∀ v ∈ s.verticals, u.read .spanStart ≤ v.distance ∧ v.distance ≤ u.read .spanEnd
        let limits := ∀ i b, s.rating.bands.get i = some b →
          -u.read .shiftLimit ≤ b.target ∧ b.target ≤ u.read .shiftLimit ∧
          -u.read .shiftLimit ≤ b.applied ∧ b.applied ≤ u.read .shiftLimit
        let scales := s.cable.state = .unhomed ∨ s.cable.state = .parked ∨ s.cable.state = .halted ∨
          ∀ x ∈ [Setting.traverseCountsPerMetre, .hoistCountsPerMetre, .homeOffset], u.read x = s.settings.read x
        (¬ stages → ∀ k, blamed .stageCeiling .stageFloor k → refused params 3 k) ∧
        (stages → ¬ cadences → ∀ k, blamed .floodCadence .quietCadence k → refused params 3 k) ∧
        (stages → cadences → ¬ span → ∀ k, blamed .spanEnd .spanStart k → refused params 3 k) ∧
        (stages → cadences → span → ¬ duties → ∀ k, blamed .traverseSlowDuty .traverseFastDuty k →
          refused params 3 k) ∧
        (stages → cadences → span → duties → ¬ inside → refused params 8 0) ∧
        (stages → cadences → span → duties → inside → ¬ limits → refused params 8 0) ∧
        (stages → cadences → span → duties → inside → limits → ¬ scales → refused params 4 0))

/-- R181: READ SETTINGS answers identifier and value of all 35 settings, or of 1 to 16 settings in the order asked.
R17, R24, R70, R137, R147, R182, R187: the reports have the lengths of their layouts, open as they say, and change
nothing but the slot. A parameter out of its range refuses READ SETTINGS, READ CHANNEL, READ RUN and READ RULE with its
index; that the first bad one is reported is the model's choice (LOG 31). -/
def Obligations.ReportsHaveTheirLayouts : Prop :=
  ∀ (s : State), s.resetHeld = false → s.port.ignoring = false → s.port.slot = none →
    let pairs := fun (xs : List Setting) => xs.flatMap fun x => BitVec.ofNat 8 x.id :: be4 (s.settings.read x)
    exec (.readSettings []) s = .next (s.answered .done 0x07 (pairs Setting.all)) ∧
    Setting.all.map Setting.id = (List.range 35).map (· + 1) ∧
    (∀ xs : List Setting, 1 ≤ xs.length → xs.length ≤ 16 →
      exec (.readSettings (paramBytes (xs.map fun x => BitVec.ofNat 32 x.id))) s =
        .next (s.answered .done 0x07 (pairs xs))) ∧
    (∀ (xs : List Setting) (bad : Word) (rest : List Word), xs.length + rest.length < 16 →
      bad.toInt < 1 ∨ 35 < bad.toInt →
      exec (.readSettings (paramBytes (xs.map (fun x => BitVec.ofNat 32 x.id) ++ bad :: rest))) s =
        .next (s.answered .refused 0x07 [3, BitVec.ofNat 8 xs.length])) ∧
    (∃ b, exec (.readStation []) s = .next (s.answered .done 0x08 b) ∧ b.length = 111 ∧ b.take 4 = beWord s.clock ∧
      (b.drop 4).take 19 = s.stage.record.bytes ∧
      (∀ h, s.stage.record.stage = some h → (b.drop 23).take 20 = 1 :: (forwardLookup s h).bytes) ∧
      (s.stage.record.stage = none → (b.drop 23).take 20 = List.replicate 20 0) ∧
      (b.drop 51).take 34 = s.carriageBytes ∧ (b.drop 93).take 17 = s.warning.report ∧
      b.getLast? = some (BitVec.ofNat 8 s.warning.level)) ∧
    (∀ i : ChannelNumber, ∃ b, exec (.readChannel (beWord (BitVec.ofNat 32 i.val))) s = .next (s.answered .done 0x12 b) ∧
      b.length = 38 ∧ b = (s.channels.get i).bytes i) ∧
    (∀ channel : Word, 3 < channel.toNat →
      exec (.readChannel (beWord channel)) s = .next (s.answered .refused 0x12 [3, 0])) ∧
    (∃ b, exec (.setVote []) s = .next (s.answered .done 0x18 b) ∧ b.length = 58 ∧
      b.take 2 = [BitVec.ofNat 8 s.stage.setup.primary.val, s.stage.setup.checks.setWidth 8]) ∧
    (∃ b, exec (.readShifts []) s = .next (s.answered .done 0x2A b) ∧ b.length = 174 ∧
      ∀ k : Fin 8, (b.drop (21 * k.val)).take 21 = bandBytes k.val (s.rating.bands.get k)) ∧
    (∀ f n : Nat, f < 32 → n < 5 →
      exec (.readRun (paramBytes [BitVec.ofNat 32 f, BitVec.ofNat 32 n])) s = .next (s.answered .done 0x3D
        (s.gauging.run.bytes ++ [BitVec.ofNat 8 f] ++ (List.range n).flatMap fun k =>
          match s.gauging.run.results[f + k]? with
          | some e => e.bytes
          | none => [0]))) ∧
    s.gauging.run.bytes.length = 56 ∧
    (∀ first number : Word,
      let request := Instr.readRun (paramBytes [first, number])
      (first.toInt < 0 ∨ 31 < first.toInt → exec request s = .next (s.answered .refused 0x3D [3, 0])) ∧
      (0 ≤ first.toInt → first.toInt ≤ 31 → number.toInt < 0 ∨ 4 < number.toInt →
        exec request s = .next (s.answered .refused 0x3D [3, 1]))) ∧
    (∀ slot : Word, slot.toInt < 0 ∨ 15 < slot.toInt →
      exec (.readRule (beWord slot)) s = .next (s.answered .refused 0x45 [3, 0])) ∧
    (∀ k : Fin 16, exec (.readRule (beWord (BitVec.ofNat 32 k.val))) s =
      .next (s.answered .done 0x45 (ruleBytes k.val (s.warning.rules.get k))) ∧
      (ruleBytes k.val (s.warning.rules.get k)).length = 32) ∧
    ∃ b, exec (.readRule []) s = .next (s.answered .done 0x45 b) ∧ b.length = 33 ∧
      b.getLast? = some (BitVec.ofNat 8 s.warning.level)

/-- R57, R99, R113, R136, R183: RESTART stops the cableway, hands Restarted to the Gauging Unit where a movement is in
progress, ends a run under way, abandons an adoption, resets the cursor and empties the attention set; the records keep
the rest, the next run id and the meter among them. End fields that stand are kept (LOG 22: the model's inference). -/
def Obligations.RestartEndsWhatIsUnderWay : Prop :=
  ∀ (s : State), s.resetHeld = false → s.port.ignoring = false → s.port.slot = none →
    let run := s.gauging.run
    let stopped := { s.cable with
      state := .unhomed, haltedKnown := false, activity := .idle, recovering := false,
      traverse := { s.cable.traverse with on := false, start := none, jam := 0 },
      hoist := { s.cable.hoist with on := false, start := none, jam := 0 } }
    restartCable s = { state := { s with cable := stopped }, result := match s.cable.activity with
      | .moving _ => some .restarted
      | _ => none } ∧
    ∃ t, exec (.restart []) s = .next t ∧
      t.port = { s.port with slot := some { status := .done, code := 0x09, body := [] }, attention := 0x002,
                             cursor := { table := .draft, index := 0, fields := [] }, sdo := .highImpedance } ∧
      t.clock = s.clock ∧ t.settings = s.settings ∧ t.channels = s.channels ∧ t.stage = s.stage ∧
      t.verticals = s.verticals ∧ t.warning = s.warning ∧
      t.rating = { s.rating with adoption := { s.rating.adoption with request := none } } ∧
      t.cable = stopped ∧ t.knownPosition = none ∧
      t.gauging = (restartRun (deliver (restartCable s))).gauging ∧
      t.gauging =
        if run.state = .armed ∨ run.state = .running ∨ run.state = .returning then { s.gauging with
          run := { run with
            state := .aborted, endReason := some (run.endReason.getD .restarted),
            endTime := some (run.endTime.getD s.clock), endStage := run.endStage.or s.stage.record.stage,
            step := none, current := none, triggerMet := none, waitRemaining := none },
          visit := [], dwell := none }
        else s.gauging

/-! ### Level channels -/

/-- R14, R15: CONFIGURE CHANNEL starts a channel afresh in its kind, and is refused with BadField at the first parameter
that fails. R19: the mark filter starts from the level the mark line holds, which a channel keeps in `markLine` (LOG 6:
the model's choice). That the settling count of a channel set to Encoder is 0 is the model's inference (LOG 34). -/
def Obligations.ConfigureStartsAChannelAfresh : Prop :=
  ∀ (i : ChannelNumber) (scale offset markStage : Word) (s : State), s.resetHeld = false → s.port.ignoring = false →
    s.port.slot = none →
    let c := s.channels.get i
    let request := fun (kind edge : Word) => Instr.configureChannel
      (paramBytes [BitVec.ofNat 32 i.val, kind, scale, offset, markStage, edge])
    let fresh := { c with count := 0, gate := none, lastGate := none, settlingCount := 0, settlingTimer := none,
                          reading := none, readingTime := s.clock, lastMark := none,
                          markLevel := some c.markLine }
    let refused := fun (kind edge : Word) (index : Byte) =>
      exec (request kind edge) s = .next (s.answered .refused 0x10 [3, index])
    let scaleFits := fun (most : Int) => 1 ≤ scale.toInt ∧ scale.toInt ≤ most
    let offsetFits := -1000000 ≤ offset.toInt ∧ offset.toInt ≤ 1000000
    let markFits := -2000 ≤ markStage.toInt ∧ markStage.toInt ≤ 30000
    (∀ edge, exec (request 0 edge) s =
      .next ((s.withChannel i { fresh with kind := .off, mark := none, condition := .off }).answered .done 0x10 [])) ∧
    (offsetFits →
      (scaleFits 10000 →
        exec (request 1 0) s = .next ((s.withChannel i
          { fresh with kind := .encoder, scale := scale.toInt, offset := offset.toInt, mark := none,
                       condition := .settling, settlingTimer := some 0 }).answered .done 0x10 []) ∧
        (markFits → ∀ edge : MarkEdge,
          exec (request 1 (BitVec.ofInt 32 edge.code)) s = .next ((s.withChannel i
            { fresh with kind := .encoder, scale := scale.toInt, offset := offset.toInt,
                         mark := some { stage := markStage.toInt, edge := edge },
                         condition := .settling, settlingTimer := some 0 }).answered .done 0x10 []))) ∧
      (scaleFits 100000 →
        exec (request 2 0) s = .next ((s.withChannel i
          { fresh with kind := .frequency, scale := scale.toInt, offset := offset.toInt, mark := none,
                       condition := .settling, gate := some { elapsed := 0, pulses := 0 } }).answered .done 0x10 []))) ∧
    (∀ channel kind edge : Word, 3 < channel.toNat →
      exec (.configureChannel (paramBytes [channel, kind, scale, offset, markStage, edge])) s =
        .next (s.answered .refused 0x10 [3, 0])) ∧
    (∀ kind edge : Word, 2 < kind.toNat → refused kind edge 1) ∧
    (∀ edge, (¬ scaleFits 10000 → refused 1 edge 2) ∧ (¬ scaleFits 100000 → refused 2 edge 2)) ∧
    ∀ (kind edge : Word) (most : Int), (kind = 1 ∧ most = 10000 ∨ kind = 2 ∧ most = 100000) → scaleFits most →
      (¬ offsetFits → refused kind edge 3) ∧
      (offsetFits → edge ≠ 0 → ¬ markFits → refused kind edge 4) ∧
      (offsetFits → markFits → 3 < edge.toNat → refused kind edge 5) ∧
      (offsetFits → markFits → edge ≠ 0 → kind = 2 → refused kind edge 5)

/-- R16: SET CHANNEL STAGE makes the offset the stage less the count term, and the channel Settling; it is refused by the
first of its checks that fails. -/
def Obligations.SetChannelStageMovesTheOffset : Prop :=
  ∀ (i : ChannelNumber) (stage : Word) (s : State), s.resetHeld = false → s.port.ignoring = false → s.port.slot = none →
    let c := s.channels.get i
    let term := roundHalfUp ((if c.kind = .frequency then ((c.lastGate.getD 0 : Nat) : Int) else c.count.toInt) * c.scale)
      1000
    let offset := stage.toInt - term
    let request := Instr.setChannelStage (paramBytes [BitVec.ofNat 32 i.val, stage])
    (∀ channel : Word, 3 < channel.toNat →
      exec (.setChannelStage (paramBytes [channel, stage])) s = .next (s.answered .refused 0x11 [3, 0])) ∧
    (stage.toInt < -2000 ∨ 30000 < stage.toInt → exec request s = .next (s.answered .refused 0x11 [3, 1])) ∧
    (-2000 ≤ stage.toInt → stage.toInt ≤ 30000 → c.condition ≠ .valid →
      exec request s = .next (s.answered .refused 0x11 [4, 0])) ∧
    (-2000 ≤ stage.toInt → stage.toInt ≤ 30000 → c.condition = .valid →
      (stage.toInt < s.settings.read .stageFloor ∨ s.settings.read .stageCeiling < stage.toInt ∨
        offset < -1000000 ∨ 1000000 < offset → exec request s = .next (s.answered .refused 0x11 [8, 0])) ∧
      (s.settings.read .stageFloor ≤ stage.toInt → stage.toInt ≤ s.settings.read .stageCeiling →
        -1000000 ≤ offset → offset ≤ 1000000 →
        exec request s = .next ((s.withChannel i
          { c with offset := offset, condition := .settling, reading := none, readingTime := s.clock,
                   settlingTimer := if c.kind = .encoder then some 0 else none,
                   settlingCount := if c.kind = .frequency then 0 else c.settlingCount }).answered .done 0x11
            (be4 c.offset ++ be4 offset))))

/-- R2, R3, R11: a quadrature change moves an encoder's count by one, up when line A leads, and a reading that shows
follows it; of another kind, or with both lines together, it does nothing. R4, R5: a matching mark edge loads the count
nearest the mark stage and records the correction; a matching edge on a channel that shows a reading takes the new
value. Every mark edge leaves the level its line then has (LOG 6: the model's choice). -/
def Obligations.QuadratureAndMarkEdgesMoveTheCount : Prop :=
  (∀ (i : ChannelNumber) (e : QuadratureEdge) (s : State), s.resetHeld = false →
    let c := s.channels.get i
    let count :=
      if (e.changed = .lineA ∧ e.a ≠ e.b) ∨ (e.changed = .lineB ∧ e.a = e.b) then c.count + 1 else c.count - 1
    let value := max (-1000000) (min 1000000 (c.offset + roundHalfUp (count.toInt * c.scale) 1000))
    (c.kind ≠ .encoder ∨ e.changed = .both → exec (.quadratureChange i e) s = .next s) ∧
    (c.kind = .encoder → e.changed ≠ .both →
      (c.condition = .settling →
        exec (.quadratureChange i e) s = .next (s.withChannel i { c with count := count })) ∧
      (c.condition = .valid ∨ c.condition = .outOfRange →
        exec (.quadratureChange i e) s = .next (s.withChannel i
          { c with count := count, reading := some value, readingTime := s.clock,
                   condition := if s.settings.read .stageFloor ≤ value ∧ value ≤ s.settings.read .stageCeiling
                     then .valid else .outOfRange })))) ∧
  ∀ (i : ChannelNumber) (e : Edge) (m : Mark) (s : State), s.resetHeld = false →
    let c := s.channels.get i
    let level := if e = .rising then Level.high else .low
    let matching := m.edge = .both ∨ (m.edge = .rising ∧ e = .rising) ∨ (m.edge = .falling ∧ e = .falling)
    let count := BitVec.ofInt 32 (roundHalfUp ((m.stage - c.offset) * 1000) c.scale)
    let before := max (-1000000) (min 1000000 (c.offset + roundHalfUp (c.count.toInt * c.scale) 1000))
    let value := max (-1000000) (min 1000000 (c.offset + roundHalfUp (count.toInt * c.scale) 1000))
    let loaded := { c with markLine := level, markLevel := some level, count := count,
                           lastMark := some { mm := m.stage - before, time := s.clock } }
    (c.kind ≠ .encoder ∨ c.mark = none →
      exec (.markEdge i e) s = .next (s.withChannel i { c with markLine := level })) ∧
    (c.kind = .encoder → c.mark = some m →
      (¬ matching →
        exec (.markEdge i e) s = .next (s.withChannel i { c with markLine := level, markLevel := some level })) ∧
      (matching → c.condition = .settling → exec (.markEdge i e) s = .next (s.withChannel i loaded)) ∧
      (matching → c.condition = .valid ∨ c.condition = .outOfRange →
        exec (.markEdge i e) s = .next (s.withChannel i
          { loaded with reading := some value, readingTime := s.clock,
                        condition := if s.settings.read .stageFloor ≤ value ∧ value ≤ s.settings.read .stageCeiling
                          then .valid else .outOfRange })))

/-- R10: at the end of settling an encoder takes its value as the reading. R7: a pulse adds one to a running gate's
count, which stops at 1,000,000. R8, R9: the table of a gate completion; that the row which makes a Valid or OutOfRange
channel Silent keeps the settling count is the model's inference (LOG 11). -/
def Obligations.ChannelTimersAndPulses : Prop :=
  (∀ (i : ChannelNumber) (n : Nat) (s : State), s.resetHeld = false →
    let c := s.channels.get i
    let value := max (-1000000) (min 1000000 (c.offset + roundHalfUp (c.count.toInt * c.scale) 1000))
    c.settlingTimer = some n →
    exec (.settlingTimerExpiry i) s = .next (s.withChannel i
      { c with settlingTimer := none, reading := some value, readingTime := s.clock,
               condition := if s.settings.read .stageFloor ≤ value ∧ value ≤ s.settings.read .stageCeiling
                 then .valid else .outOfRange })) ∧
  ∀ (i : ChannelNumber) (g : Gate) (s : State), s.resetHeld = false →
    let c := s.channels.get i
    c.kind = .frequency → c.gate = some g →
    let next := { c with lastGate := some g.pulses, gate := some { elapsed := 0, pulses := 0 } }
    let few := (g.pulses : Int) < s.settings.read .minimumPulses
    let value := max (-1000000) (min 1000000 (c.offset + roundHalfUp (g.pulses * c.scale) 1000))
    let condition := if g.pulses = 1000000 then Condition.outOfRange
      else if s.settings.read .stageFloor ≤ value ∧ value ≤ s.settings.read .stageCeiling then .valid
      else .outOfRange
    let result := fun k => exec (.gateCompletion i) s = .next (s.withChannel i k)
    exec (.frequencyPulse i) s =
      .next (s.withChannel i { c with gate := some { g with pulses := min 1000000 (g.pulses + 1) } }) ∧
    (c.condition = .settling → few → result { next with condition := .silent, settlingCount := 0 }) ∧
    (c.condition = .settling → ¬ few → c.settlingCount = 0 → result { next with settlingCount := 1 }) ∧
    (c.condition = .settling → ¬ few → c.settlingCount = 1 →
      result { next with settlingCount := 2, reading := some value, readingTime := s.clock,
                         condition := condition }) ∧
    (c.condition = .valid ∨ c.condition = .outOfRange → few →
      result { next with condition := .silent, reading := none, readingTime := s.clock }) ∧
    (c.condition = .valid ∨ c.condition = .outOfRange → ¬ few →
      result { next with reading := some value, readingTime := s.clock, condition := condition }) ∧
    (c.condition = .silent → few → result next) ∧
    (c.condition = .silent → ¬ few → result { next with condition := .settling, settlingCount := 1 })

/-! ### Stage Settlement -/

/-- R24, R25: SET VOTE leaves a pending setup, and refuses a primary that is no channel and a mask that names the primary
or anything but a channel; the setup in force is replaced at the end of the interval, with the vote records that
`ChannelsAreComparedAndFloatsWatched` states. That the primary is reported where
both are bad is the model's choice (LOG 31). -/
def Obligations.SetVoteLeavesAPendingSetup : Prop :=
  ∀ (p : ChannelNumber) (m : BitVec 4) (s : State), s.resetHeld = false → s.port.ignoring = false → s.port.slot = none →
    let request := Instr.setVote (paramBytes [BitVec.ofNat 32 p.val, m.setWidth 32])
    (∀ primary mask : Word, 3 < primary.toNat →
      exec (.setVote (paramBytes [primary, mask])) s = .next (s.answered .refused 0x18 [3, 0])) ∧
    (∀ mask : Word, 15 < mask.toNat →
      exec (.setVote (paramBytes [BitVec.ofNat 32 p.val, mask])) s = .next (s.answered .refused 0x18 [3, 1])) ∧
    (m.getLsbD p.val = true → exec request s = .next (s.answered .refused 0x18 [3, 1])) ∧
    (m.getLsbD p.val = false →
      let t := { s with stage := { s.stage with pendingSetup := some { primary := p, checks := m } } }
      exec request s = .next (t.answered .done 0x18 t.stage.voteReport)) ∧
    ∃ t, exec .stageIntervalExpiry s = .next t ∧ t.stage.pendingSetup = none ∧
      t.stage.setup = s.stage.pendingSetup.getD s.stage.setup

/-- R20, R21, R36, R37, R40: the end of an interval publishes one record, chosen from the standings after the vote. -/
def Obligations.StageIsChosenFromTheVote : Prop :=
  ∀ (s : State), s.resetHeld = false → ∃ t, exec .stageIntervalExpiry s = .next t ∧
    (let u := t.stage.setup
     let r := t.stage.record
     let usable := fun i => (s.channels.get i).condition = .valid ∧ (t.stage.votes.get i).standing = .candidate
     let reading := fun i => (s.channels.get i).reading.getD 0
     let flood := s.warning.effects.floodCadence ≠ [] ∨ s.gauging.run.state = .running ∨
       s.gauging.run.state = .returning
     r.sequence = s.stage.record.sequence + 1 ∧ r.time = s.clock ∧ r.cadence = s.stage.interval.cadence ∧
     (flood → t.stage.interval =
       { length := (s.settings.read .floodCadence).toNat, cadence := .flood, elapsed := 0 }) ∧
     (¬ flood → t.stage.interval =
       { length := (s.settings.read .quietCadence).toNat, cadence := .quiet, elapsed := 0 }) ∧
     (usable u.primary → r.stage = some (reading u.primary) ∧ r.source = some u.primary ∧ r.quality = .good ∧
       t.stage.heldCount = 0) ∧
     (∀ i, ¬ usable u.primary → i ≠ u.primary → u.checks.getLsbD i.val = true → usable i →
       (∀ j, j < i → j ≠ u.primary → u.checks.getLsbD j.val = true → ¬ usable j) →
       r.stage = some (reading i) ∧ r.source = some i ∧ r.quality = .failover ∧ t.stage.heldCount = 0) ∧
     ((∀ i, usable i → i ≠ u.primary ∧ u.checks.getLsbD i.val = false) →
       (∀ h, s.stage.record.stage = some h → (s.stage.heldCount : Int) < s.settings.read .holdLimit →
         r.stage = some h ∧ r.source = none ∧ r.quality = .held ∧ t.stage.heldCount = s.stage.heldCount + 1) ∧
       (s.stage.record.stage = none ∨ s.settings.read .holdLimit ≤ (s.stage.heldCount : Int) →
         r.stage = none ∧ r.source = none ∧ r.quality = .none ∧ t.stage.heldCount = s.stage.heldCount ∧
         (s.stage.record.quality ≠ .none → t.attends .stageLost = true)))) ∧
    t.clock = s.clock ∧ t.settings = s.settings ∧ t.channels = s.channels ∧ t.rating = s.rating ∧
    t.pending = s.pending ∧ t.port = { s.port with attention := t.port.attention } ∧
    t.cable.contacts = s.cable.contacts ∧ t.gauging.meter = s.gauging.meter

/-- R38, R39: the rate and the trend of the new record. -/
def Obligations.RateAndTrendOfTheNewRecord : Prop :=
  ∀ (s : State), s.resetHeld = false → ∃ t, exec .stageIntervalExpiry s = .next t ∧
    (∀ old new, s.stage.record.stage = some old → t.stage.record.stage = some new →
      s.stage.record.quality ≠ .held → t.stage.record.quality ≠ .held →
      let raw := max (-100000) (min 100000 (Int.tdiv ((new - old) * 3600) s.stage.interval.length))
      t.stage.record.rate = s.stage.record.rate + Int.tdiv (raw - s.stage.record.rate) 4) ∧
    (s.stage.record.stage = none ∨ t.stage.record.stage = none ∨ s.stage.record.quality = .held ∨
      t.stage.record.quality = .held → t.stage.record.rate = s.stage.record.rate) ∧
    t.stage.record.trend =
      if s.settings.read .steadyLimit ≤ t.stage.record.rate then .rising
      else if t.stage.record.rate ≤ -s.settings.read .steadyLimit then .falling else .steady

/-- R25: at the end of an interval the pending setup comes into force, and a channel whose role it changes starts afresh,
Candidate or Excluded with no counts and no watch, while the others keep their records. R27 to R31, R34: each channel
compared with the reference, the usable primary or else the lowest-numbered usable check, counts toward Disagreeing and
back toward Candidate; two or more checks that agree with one another and not with the primary count toward its
demotion; a channel that is not compared keeps its counts. R32, R33: a float whose count stands still while the stage
moves becomes Stuck, which takes precedence, and a Stuck float whose count changes, or which is no float any more, is
released. A change of standing raises ChannelChanged. That the watch of a channel which is no float goes at the
settlement is the model's inference (LOG 12). -/
def Obligations.ChannelsAreComparedAndFloatsWatched : Prop :=
  ∀ (s : State), s.resetHeld = false → 1 ≤ s.settings.read .votePersistence →
    0 ≤ s.settings.read .agreementBand →
    let setup := s.stage.pendingSetup.getD s.stage.setup
    let p := setup.primary
    let checks := setup.checks
    -- R25: the record a channel starts from
    let start := fun (i : ChannelNumber) =>
      if setup.role i = s.stage.setup.role i then s.stage.votes.get i
      else { standing := if setup.role i = .neither then .excluded else .candidate, disagree := 0, agree := 0,
             watch := none }
    let band := s.settings.read .agreementBand
    let persistence := s.settings.read .votePersistence
    let last := s.stage.record.stage
    let valid := fun i => (s.channels.get i).condition = .valid
    let usable := fun i => valid i ∧ (start i).standing = .candidate
    let check := fun (i : ChannelNumber) => i ≠ p ∧ checks.getLsbD i.val = true
    let gap := fun (i j : ChannelNumber) =>
      (((s.channels.get i).reading.getD 0 - (s.channels.get j).reading.getD 0).natAbs : Int)
    let demoting := usable p ∧ (∃ i j, i ≠ j ∧ check i ∧ check j ∧ usable i ∧ usable j) ∧
      (∀ i, check i → usable i → band < gap i p) ∧
      ∀ i j, check i → check j → usable i → usable j → gap i j ≤ band
    ∃ t, exec .stageIntervalExpiry s = .next t ∧
      -- R34
      ((∃ i, (start i).standing ≠ (s.stage.votes.get i).standing ∨
        (t.stage.votes.get i).standing ≠ (start i).standing) → t.attends .channelChanged = true) ∧
      -- R23, R32: a channel outside the vote
      (∀ i, (start i).standing = .excluded → t.stage.votes.get i = start i) ∧
      -- R27: the comparisons leave a record v, unless the watch makes a float Stuck
      (let leaves := fun (i : ChannelNumber) (v : VoteRecord) =>
        ((s.channels.get i).kind ≠ .encoder → t.stage.votes.get i = { v with watch := none }) ∧
        ((s.channels.get i).kind = .encoder → (t.stage.votes.get i).standing ≠ .stuck →
          t.stage.votes.get i = { v with watch := (t.stage.votes.get i).watch })
      -- R28, R29, R31: a channel compared with the reference
      (∀ i r : ChannelNumber, i ≠ r →
        (r = p ∧ usable p ∨
          ¬ usable p ∧ check r ∧ usable r ∧ ∀ j, j < r → check j → ¬ usable j) →
        valid i →
        let v := start i
        (check i ∧ (v.standing = .candidate ∨ v.standing = .disagreeing) ∨ i = p ∧ v.standing = .disagreeing) →
        ¬ (demoting ∧ usable i) →
        let agree := min 15 (v.agree + 1)
        let disagree := min 15 (v.disagree + 1)
        (gap i r ≤ band → v.standing = .disagreeing → persistence ≤ (agree : Int) →
          leaves i { v with standing := .candidate, disagree := 0, agree := 0 }) ∧
        (gap i r ≤ band → v.standing = .candidate ∨ (agree : Int) < persistence →
          leaves i { v with agree := agree, disagree := 0 }) ∧
        (band < gap i r → v.standing = .candidate → persistence ≤ (disagree : Int) →
          leaves i { v with standing := .disagreeing, disagree := 0, agree := 0 }) ∧
        (band < gap i r → v.standing = .disagreeing ∨ (disagree : Int) < persistence →
          leaves i { v with disagree := disagree, agree := 0 })) ∧
      -- R27, R28, R31: an acting reference, a channel that is not Valid, and every channel without a reference
      (∀ i, (start i).standing = .candidate ∨ (start i).standing = .disagreeing →
        (¬ usable p ∧ check i ∧ usable i ∧ (∀ j, j < i → check j → ¬ usable j)) ∨ ¬ valid i ∨
          (¬ usable p ∧ ∀ j, check j → ¬ usable j) →
        leaves i (start i)) ∧
      -- R30: the primary as reference, and the checks that demote it
      (usable p →
        let v := start p
        let disagree := min 15 (v.disagree + 1)
        (¬ demoting → leaves p { v with disagree := 0, agree := 0 }) ∧
        (demoting → (disagree : Int) < persistence → leaves p { v with disagree := disagree, agree := 0 }) ∧
        (demoting → persistence ≤ (disagree : Int) →
          leaves p { v with standing := .disagreeing, disagree := 0, agree := 0 })) ∧
      ∀ i, demoting → check i → usable i → leaves i { start i with disagree := 0 }) ∧
      -- R32: the watch of a float
      (∀ i, (s.channels.get i).kind = .encoder →
        (start i).standing = .candidate ∨ (start i).standing = .disagreeing →
        let count := (s.channels.get i).count
        let started : StuckWatch := { count := count, stage := last, settlements := 0 }
        let starts := (t.stage.votes.get i).watch = some started ∧ (t.stage.votes.get i).standing ≠ .stuck
        ((start i).watch = none → starts) ∧
        ∀ w, (start i).watch = some w →
          (count ≠ w.count → starts) ∧
          (count = w.count →
            let advanced := { w with settlements := min 255 (w.settlements + 1), stage := w.stage.or last }
            (t.stage.votes.get i).watch = some advanced ∧
            ((t.stage.votes.get i).standing = .stuck ↔
              ∃ old now, advanced.stage = some old ∧ last = some now ∧
                s.settings.read .stuckLimit ≤ (advanced.settlements : Int) ∧ band < ((now - old).natAbs : Int)) ∧
            ((t.stage.votes.get i).standing = .stuck →
              (t.stage.votes.get i).disagree = 0 ∧ (t.stage.votes.get i).agree = 0))) ∧
      -- R33: a Stuck channel
      (∀ i, (s.channels.get i).kind ≠ .encoder → (start i).standing = .stuck →
        t.stage.votes.get i = { standing := .candidate, disagree := 0, agree := 0, watch := none }) ∧
      ∀ i w, (s.channels.get i).kind = .encoder → (start i).standing = .stuck →
        (start i).watch = some w →
        ((s.channels.get i).count ≠ w.count → t.stage.votes.get i =
          { standing := .candidate, disagree := 0, agree := 0,
            watch := some { count := (s.channels.get i).count, stage := last, settlements := 0 } }) ∧
        ((s.channels.get i).count = w.count → t.stage.votes.get i =
          { start i with watch := some { w with settlements := min 255 (w.settlements + 1) } })

/-- R148 to R151: a publication evaluates every rule on the new record: counts, trips and clears. A rule whose value is
unavailable, a Discharge rule whose lookup is flagged NoRating among them, is skipped. -/
def Obligations.RulesAreEvaluatedAtAPublication : Prop :=
  ∀ (k : Fin 16) (r : Rule) (s : State), s.resetHeld = false → s.warning.rules.get k = some r →
    ∃ t, exec .stageIntervalExpiry s = .next t ∧
      (t.stage.record.quality = .none ∨ r.state = .disarmed ∨
          (r.quantity = .discharge ∧ ∃ h, t.stage.record.stage = some h ∧ (forwardLookup t h).flag = .noRating) →
        t.warning.rules.get k = some r) ∧
      ∀ v : Int, t.stage.record.quality ≠ .none →
        (match r.quantity with
          | .stage => t.stage.record.stage = some v
          | .rate => t.stage.record.rate = v
          | .discharge => ∃ h, t.stage.record.stage = some h ∧ (forwardLookup t h).discharge = some v) →
        (r.state = .armed ∨ r.state = .latched →
          (v < r.trip → t.warning.rules.get k = some { r with tripCount := 0 }) ∧
          (r.trip ≤ v → r.tripCount + 1 < r.tripPersistence →
            t.warning.rules.get k = some { r with tripCount := r.tripCount + 1 }) ∧
          (r.trip ≤ v → r.tripPersistence ≤ r.tripCount + 1 →
            t.warning.rules.get k = some { r with
              state := .tripped, tripTime := some s.clock, peak := some v, clearTime := none, tripCount := 0,
              clearCount := 0 } ∧
            t.attends .ruleTripped = true)) ∧
        (r.state = .tripped ∨ r.state = .acknowledged →
          let peak := max v (r.peak.getD v)
          (r.clear < v → t.warning.rules.get k = some { r with peak := some peak, clearCount := 0 }) ∧
          (v ≤ r.clear → r.clearCount + 1 < r.clearPersistence →
            t.warning.rules.get k = some { r with peak := some peak, clearCount := r.clearCount + 1 }) ∧
          (v ≤ r.clear → r.clearPersistence ≤ r.clearCount + 1 →
            t.warning.rules.get k = some { r with
              state := if r.state = .tripped ∧ r.acknowledgeRequired = true then .latched else .armed,
              peak := some peak, clearTime := some s.clock, tripCount := 0, clearCount := 0 } ∧
            t.attends .ruleCleared = true))

/-! ### The cursor and the ratings -/

/-- R45: SET CURSOR. That the table is reported where both parameters are bad is the model's choice (LOG 31). -/
def Obligations.SetCursorPlacesTheCursor : Prop :=
  ∀ (table index : Word) (s : State), s.resetHeld = false → s.port.ignoring = false → s.port.slot = none →
    let request := Instr.setCursor (paramBytes [table, index])
    let cursor := fun (t : State) => be1 t.port.cursor.table.code ++ be1 t.port.cursor.index ++
      be1 t.port.cursor.fields.length ++ be1 (t.tableCount t.port.cursor.table)
    (2 < table.toNat → exec request s = .next (s.answered .refused 0x20 [3, 0])) ∧
    (table.toNat ≤ 2 → (index.toInt < 0 ∨ (if table = 2 then 31 else 47) < index.toInt) →
      exec request s = .next (s.answered .refused 0x20 [3, 1])) ∧
    (∀ x : Table, table = BitVec.ofInt 32 x.code → 0 ≤ index.toInt →
      index.toInt ≤ (if table = 2 then 31 else 47) →
      let t := { s with port := { s.port with cursor := { table := x, index := index.toNat, fields := [] } } }
      exec request s = .next (t.answered .done 0x20 (cursor t))) ∧
    exec (.setCursor []) s = .next (s.answered .done 0x20 (cursor s))

/-- R46 to R48, R81, R82: WRITE FIELDS keeps a value of a partial entry, commits a complete point or vertical at the
cursor and moves on, and refuses what its checks refuse, in their order. A request of 2 to 16 values does what its first
value does and then what the rest do, with one more value taken; at a refused value it ends there, and what the values
before it committed stays. The Armed run that a commit makes ready starts (`ArmedRunStartsWhenReady`). -/
def Obligations.WriteFieldsFillsAndCommits : Prop :=
  (∀ (w : Word) (s : State), s.resetHeld = false → s.port.ignoring = false → s.port.slot = none →
    let c := s.port.cursor
    let request := Instr.writeFields (beWord w)
    let placed := fun (t : State) (index : Nat) (fields : List Word) =>
      { t with port := { t.port with cursor := { c with index := index, fields := fields } } }
    let refused := fun (why detail : Byte) =>
      exec request s = .next ((placed s c.index []).answered .refused 0x21 [why, detail, 1])
    (c.table ≠ .active → c.fields.length + 1 < c.table.fieldCount →
      exec request s = .next ((placed s c.index (c.fields ++ [w])).answered .done 0x21
        (be1 c.index ++ be1 (c.fields.length + 1 : Nat) ++ [1]))) ∧
    (∀ h : Word, c.table = .draft → c.fields = [h] →
      let p : Point := { stage := h.toInt, discharge := w.toInt }
      let limits := s.settings.read .stageFloor ≤ p.stage ∧ p.stage ≤ s.settings.read .stageCeiling
      let range := 0 ≤ p.discharge ∧ p.discharge ≤ 16000000
      let fresh := ∀ k q, s.rating.draft[k]? = some q → k ≠ c.index → q.stage ≠ p.stage
      (¬ limits → refused 3 0) ∧
      (limits → ¬ range → refused 3 1) ∧
      (limits → range → s.rating.draft.length < c.index → refused 11 0) ∧
      (limits → range → c.index ≤ s.rating.draft.length → ¬ fresh → refused 3 0) ∧
      (limits → range → c.index ≤ s.rating.draft.length → fresh →
        exec request s = .next ((placed
          (s.withDraft (s.rating.draft.take c.index ++ [p] ++ s.rating.draft.drop (c.index + 1)))
          ((c.index + 1) % 48) []).answered .done 0x21 (be1 ((c.index + 1) % 48 : Nat) ++ [0, 1])))) ∧
    (∀ d b pl : Word, c.table = .verticals → c.fields = [d, b, pl] →
      let locked := s.gauging.run.state = .running ∨ s.gauging.run.state = .returning
      let span := s.settings.read .spanStart ≤ d.toInt ∧ d.toInt ≤ s.settings.read .spanEnd
      let bed := -2000 ≤ b.toInt ∧ b.toInt ≤ 30000
      let between := (∀ v, 0 < c.index → s.verticals[c.index - 1]? = some v → v.distance < d.toInt) ∧
        ∀ v, s.verticals[c.index + 1]? = some v → d.toInt < v.distance
      (locked → refused 5 0) ∧
      (¬ locked → ¬ span → refused 3 0) ∧
      (¬ locked → span → ¬ bed → refused 3 1) ∧
      (¬ locked → span → bed → 3 < pl.toNat → refused 3 2) ∧
      (¬ locked → span → bed → pl.toNat ≤ 3 → 1 < w.toNat → refused 3 3) ∧
      ∀ (plan : MeasurePlan) (flag : SkipFlag), pl = BitVec.ofInt 32 plan.code → w = BitVec.ofInt 32 flag.code →
        ¬ locked → span → bed →
        (s.verticals.length < c.index → refused 11 0) ∧
        (c.index ≤ s.verticals.length → ¬ between → refused 3 0) ∧
        (c.index ≤ s.verticals.length → between →
          let v : Vertical := { distance := d.toInt, bed := b.toInt, plan := plan, skip := flag, source := .survey,
                                soundedTime := none }
          let edited := s.verticals.take c.index ++ [v] ++ s.verticals.drop (c.index + 1)
          ¬ RunReady { s with verticals := edited } →
          exec request s = .next ((placed { s with verticals := edited } ((c.index + 1) % 32) []).answered .done 0x21
            (be1 ((c.index + 1) % 32 : Nat) ++ [0, 1])))) ∧
    (c.table = .active → exec request s = .next (s.answered .refused 0x21 [10, 0, 0])) ∧
    ∀ bytes : List Byte, bytes.length ≤ 128 → (bytes = [] ∨ 64 < bytes.length ∨ bytes.length % 4 ≠ 0) →
      exec (.writeFields bytes) s = .next (s.answered .refused 0x21 [3, 0, 0])) ∧
  ∀ (w : Word) (ws : List Word) (s t : State), s.resetHeld = false → s.port.ignoring = false →
    s.port.slot = none → ws ≠ [] →
    ws.length ≤ 15 →
    let all := Instr.writeFields (paramBytes (w :: ws))
    (∀ body, exec (.writeFields (beWord w)) s = .next (t.answered .refused 0x21 body) →
      exec all s = .next (t.answered .refused 0x21 body)) ∧
    ∀ (u : State) (status : Status) (first head : List Byte) (n : Byte),
      t.port.slot = none → t.port.sdo = s.port.sdo → t.attends .answerReady = s.attends .answerReady →
      exec (.writeFields (beWord w)) s = .next (t.answered .done 0x21 first) →
      exec (.writeFields (paramBytes ws)) t = .next (u.answered status 0x21 (head ++ [n])) →
      exec all s = .next (u.answered status 0x21 (head ++ [n + 1]))

/-- R47, R49: READ ENTRIES answers 1 to 8 entries from the cursor on, and moves the cursor past them; another number, and
then a partial entry, refuses it. -/
def Obligations.ReadEntriesReadsFromTheCursor : Prop :=
  ∀ (s : State), s.resetHeld = false → s.port.ignoring = false → s.port.slot = none →
    (∀ w : Word, w.toInt < 1 ∨ 8 < w.toInt →
      exec (.readEntries (beWord w)) s = .next (s.answered .refused 0x22 [3, 0])) ∧
    ∀ n : Nat, 1 ≤ n → n ≤ 8 →
    let c := s.port.cursor
    let request := Instr.readEntries (beWord (BitVec.ofNat 32 n))
    let point := fun (p : Option Point) => match p with
      | none => List.replicate 9 (0 : Byte)
      | some p => [1] ++ be4 p.stage ++ be4 p.discharge
    let answer := fun (size : Nat) (head : List Byte) (entry : Nat → List Byte) =>
      ({ s with port := { s.port with cursor := { c with index := (c.index + n) % size, fields := [] } } } : State).answered
        .done 0x22 (head ++ (List.range n).flatMap fun j => entry ((c.index + j) % size))
    (c.fields ≠ [] → exec request s = .next (s.answered .refused 0x22 [4, 0])) ∧
    (c.fields = [] → c.table = .draft → exec request s = .next (answer 48
      ([0] ++ be1 c.index ++ be1 s.rating.draft.length) fun k => point s.rating.draft[k]?)) ∧
    (c.fields = [] → c.table = .active → exec request s = .next (answer 48
      ([1] ++ be1 c.index ++ be1 s.rating.active.points.length ++ be2 s.rating.active.number.toNat ++
        beWord s.rating.active.effectiveFrom) fun k => point s.rating.active.points[k]?)) ∧
    (c.fields = [] → c.table = .verticals → exec request s = .next (answer 32
      ([2] ++ be1 c.index ++ be1 s.verticals.length) fun k => verticalBytes s.verticals[k]?))

/-- R51, R52: RETIRE POINT and COPY RATING. That an index past 47 is BadField and not NotFound is the model's choice
(LOG 31). -/
def Obligations.RetirePointAndCopyRating : Prop :=
  ∀ (s : State), s.resetHeld = false → s.port.ignoring = false → s.port.slot = none →
    (∀ index : Word,
      let request := Instr.retirePoint (beWord index)
      (index.toInt < 0 ∨ 47 < index.toInt → exec request s = .next (s.answered .refused 0x23 [3, 0])) ∧
      (0 ≤ index.toInt → index.toInt ≤ 47 → (s.rating.draft.length : Int) ≤ index.toInt →
        exec request s = .next (s.answered .refused 0x23 [7, 0])) ∧
      (0 ≤ index.toInt → index.toInt ≤ 47 → index.toInt < s.rating.draft.length →
        exec request s = .next ((s.withDraft
          (s.rating.draft.take index.toNat ++ s.rating.draft.drop (index.toNat + 1))).answered .done 0x23 (be1 (s.rating.draft.length - 1 : Nat))))) ∧
    exec (.copyRating []) s =
      .next ((s.withDraft s.rating.active.points).answered .done 0x24 (be1 s.rating.active.points.length))

/-- R53 to R55: ADOPT RATING begins one adoption, and is refused for a bad number, a bad option or an adoption in flight;
its completion adopts a draft whose points ascend, and rejects any other with the first failing index; with none in
flight nothing completes (LOG 4: the model's choice). The order of the refusals is the model's choice (LOG 31). -/
def Obligations.AdoptionAdoptsOrRejects : Prop :=
  ∀ (number : BitVec 16) (time : Word) (option : ShiftOption) (s : State), s.resetHeld = false →
    let values : AdoptionRequest := { number := number, effectiveFrom := time, option := option }
    let request := Instr.adoptRating (paramBytes [number.setWidth 32, time, if option = .keep then 0 else 1])
    let d := s.rating.draft
    let above := fun (k : Nat) => ∀ p q, d[k]? = some p → d[k + 1]? = some q →
      p.stage < q.stage ∧ p.discharge < q.discharge
    let rejected := fun (outcome : AdoptionOutcome) =>
      ({ s with rating := { s.rating with adoption := { request := none, lastOutcome := outcome } },
                port := { s.port with attention := s.port.attention ||| 0x040 } } : State)
    (s.port.ignoring = false → s.port.slot = none →
      (∀ n w o : Word, (65535 < n.toNat →
          exec (.adoptRating (paramBytes [n, w, o])) s = .next (s.answered .refused 0x25 [3, 0])) ∧
        (n.toNat ≤ 65535 → 1 < o.toNat →
          exec (.adoptRating (paramBytes [n, w, o])) s = .next (s.answered .refused 0x25 [3, 2]))) ∧
      (s.rating.adoption.request = none → exec request s =
        .next (({ s with rating := { s.rating with
          adoption := { s.rating.adoption with request := some values } } } : State).answered .accepted 0x25 [])) ∧
      (s.rating.adoption.request ≠ none → exec request s = .next (s.answered .refused 0x25 [13, 0]))) ∧
    (s.rating.adoption.request = some values →
      (d.length < 2 → exec .adoptionCompletion s = .next (rejected .rejectedTooFew)) ∧
      (∀ k p q, d[k]? = some p → d[k + 1]? = some q → ¬ (p.stage < q.stage ∧ p.discharge < q.discharge) →
        (∀ j, j < k → above j) → exec .adoptionCompletion s = .next (rejected (.rejectedOrder (k + 1)))) ∧
      (2 ≤ d.length → (∀ k, above k) → exec .adoptionCompletion s =
        .next { s with
          rating := { s.rating with
            active := { points := d, number := number, effectiveFrom := time },
            bands := if option = .clear then Vector.replicate 8 none else s.rating.bands,
            adoption := { request := none, lastOutcome := .adopted number } },
          port := { s.port with attention := s.port.attention ||| 0x020 } })) ∧
    (s.rating.adoption.request = none → exec .adoptionCompletion s = .next s)

/-- R59 to R63, R66: LOOKUP, forward with the shift of the band that covers the stage, and inverse without; an unknown
direction and a value out of range are refused. That a discharge out of range is BadField and not OutOfLimits is the
model's choice (LOG 31). -/
def Obligations.LookupReadsTheRating : Prop :=
  ∀ (value : Word) (s : State), s.resetHeld = false → s.port.ignoring = false → s.port.slot = none →
    let v := value.toInt
    let points := s.rating.active.points
    let forward := Instr.lookup (paramBytes [0, value])
    let inverse := Instr.lookup (paramBytes [1, value])
    let badField := fun (request : Instr) (detail : Byte) =>
      exec request s = .next (s.answered .refused 0x26 [3, detail])
    (∀ direction : Word, 1 < direction.toNat → badField (.lookup (paramBytes [direction, value])) 0) ∧
    (v < -2000 ∨ 30000 < v → badField forward 1) ∧ (v < 0 ∨ 16000000 < v → badField inverse 1) ∧
    (∀ (slot : Option Nat) (applied : Int),
      ((slot = none ∧ applied = 0 ∧ ∀ i b, s.rating.bands.get i = some b → v < b.lower ∨ b.upper ≤ v) ∨
        ∃ i b, slot = some i.val ∧ applied = b.applied ∧ s.rating.bands.get i = some b ∧ b.lower ≤ v ∧ v < b.upper ∧
          BandsLaw (s.settings.read .shiftLimit) s.rating.bands) →
      let h := v + applied
      let answer := fun discharge flag => exec forward s = .next (s.answered .done 0x26
        ({ number := s.rating.active.number, stage := v, slot := slot, applied := applied, effective := h,
           discharge := discharge, flag := flag } : LookupResult).bytes)
      v ≤ 30000 → -2000 ≤ v →
      (points = [] → answer none .noRating) ∧
      (∀ p rest, points = p :: rest → h ≤ p.stage → answer (some p.discharge) .belowRating) ∧
      (ActiveLaw points → ∀ k p q, points[k]? = some p → points[k + 1]? = some q →
        let line := p.discharge + roundHalfUp ((q.discharge - p.discharge) * (h - p.stage)) (q.stage - p.stage)
        (p.stage < h → h ≤ q.stage → answer (some line) .inRating) ∧
        (k + 2 = points.length → q.stage < h → answer (some (min 16000000 line)) .aboveRating))) ∧
    (v ≤ 16000000 → 0 ≤ v →
      ((points = [] ∨ (∃ p rest, points = p :: rest ∧ v < p.discharge) ∨ ∀ p ∈ points, p.discharge < v) →
        exec inverse s = .next (s.answered .refused 0x26 [8, 0])) ∧
      (ActiveLaw points → ∀ k p q, points[k]? = some p → points[k + 1]? = some q →
        p.discharge < v ∨ (k = 0 ∧ p.discharge = v) → v ≤ q.discharge →
        exec inverse s = .next (s.answered .done 0x26 (be2 s.rating.active.number.toNat ++ be4 v ++
          be4 (p.stage + roundHalfUp ((q.stage - p.stage) * (v - p.discharge)) (q.discharge - p.discharge))))))

/-! ### Shift bands -/

/-- R67 to R69: DEFINE SHIFT and RETIRE SHIFT, each refused by the first of its checks that fails. R71 to R73: a ramp
expiry moves every band together, at once under a steady trusted stage and else by the ramp step, checks each, and begins
the next interval. -/
def Obligations.BandsAreDefinedRetiredAndRamped : Prop :=
  (∀ (k : Fin 8) (s : State), s.resetHeld = false → s.port.ignoring = false → s.port.slot = none →
    let put := fun (code : Byte) (b : Band) =>
      ({ s with rating := { s.rating with bands := s.rating.bands.set k.val (some b) k.isLt } } : State).answered
        .done code (bandBytes k.val (some b))
    (∀ slot lower upper target : Word,
      let badField := fun (detail : Byte) => exec (.defineShift (paramBytes [slot, lower, upper, target])) s =
        .next (s.answered .refused 0x28 [3, detail])
      let isSlot := 0 ≤ slot.toInt ∧ slot.toInt ≤ 7
      let stage := fun (w : Word) => -2000 ≤ w.toInt ∧ w.toInt ≤ 30000
      (¬ isSlot → badField 0 ∧ exec (.retireShift (beWord slot)) s = .next (s.answered .refused 0x29 [3, 0])) ∧
      (isSlot → ¬ stage lower → badField 1) ∧ (isSlot → stage lower → ¬ stage upper → badField 2) ∧
      (isSlot → stage lower → stage upper → upper.toInt ≤ lower.toInt → badField 2)) ∧
    (∀ lower upper target : Word,
      let request := Instr.defineShift (paramBytes [BitVec.ofNat 32 k.val, lower, upper, target])
      lower.toInt < upper.toInt → (-2000 ≤ lower.toInt) → upper.toInt ≤ 30000 →
      (s.settings.read .shiftLimit < (target.toInt.natAbs : Int) →
        exec request s = .next (s.answered .refused 0x28 [8, 0])) ∧
      ((target.toInt.natAbs : Int) ≤ s.settings.read .shiftLimit →
        (∀ j b, j ≠ k → s.rating.bands.get j = some b → lower.toInt < b.upper → b.lower < upper.toInt →
          exec request s = .next (s.answered .refused 0x28 [16, 0])) ∧
        ((∀ j b, j ≠ k → s.rating.bands.get j = some b →
            upper.toInt ≤ b.lower ∨ b.upper ≤ lower.toInt) →
          exec request s = .next (put 0x28
            { state := .ramping, lower := lower.toInt, upper := upper.toInt, target := target.toInt,
              applied := ((s.rating.bands.get k).map fun b => b.applied).getD 0, origin := .manual,
              changed := s.clock })))) ∧
    (let request := Instr.retireShift (beWord (BitVec.ofNat 32 k.val))
     (s.rating.bands.get k = none → exec request s = .next (s.answered .refused 0x29 [7, 0])) ∧
     ∀ b, s.rating.bands.get k = some b →
       (b.state = .retiring → exec request s = .next (put 0x29 b)) ∧
       (b.state ≠ .retiring → exec request s =
         .next (put 0x29 { b with state := .retiring, target := 0, changed := s.clock })))) ∧
  ∀ (s : State), s.resetHeld = false → ∃ bands : ShiftTable,
    exec .rampExpiry s = .next { s with rating := { s.rating with
      bands := bands, ramp := { length := (s.settings.read .rampInterval).toNat, elapsed := 0 } } } ∧
    ∀ k,
      (s.rating.bands.get k = none → bands.get k = none) ∧
      ∀ b, s.rating.bands.get k = some b →
        let step := s.settings.read .rampStep
        let r := s.stage.record
        let moved := if r.trend = .steady ∧ (r.quality = .good ∨ r.quality = .failover) then b.target
          else if b.applied ≤ b.target then min b.target (b.applied + step) else max b.target (b.applied - step)
        (b.state = .applied → bands.get k = some b) ∧
        (b.state = .ramping → bands.get k = some { b with
          applied := moved, state := if moved = b.target then .applied else .ramping }) ∧
        (b.state = .retiring → bands.get k = if moved = 0 then none else some { b with applied := moved })

/-! ### The section -/

/-- R83, R121: RETIRE VERTICAL. An Armed run is tested on the section it leaves, and starts where it is ready. -/
def Obligations.RetireVerticalClosesTheGap : Prop :=
  ∀ (index : Word) (s : State), s.resetHeld = false → s.port.ignoring = false → s.port.slot = none →
    let request := Instr.retireVertical (beWord index)
    let locked := s.gauging.run.state = .running ∨ s.gauging.run.state = .returning
    (index.toInt < 0 ∨ 31 < index.toInt → exec request s = .next (s.answered .refused 0x30 [3, 0])) ∧
    (0 ≤ index.toInt → index.toInt ≤ 31 →
      (locked → exec request s = .next (s.answered .refused 0x30 [5, 0])) ∧
      (¬ locked → (s.verticals.length : Int) ≤ index.toInt →
        exec request s = .next (s.answered .refused 0x30 [7, 0])) ∧
      (¬ locked → index.toInt < s.verticals.length →
        let edited := { s with
          verticals := s.verticals.take index.toNat ++ s.verticals.drop (index.toNat + 1) }
        let answer := be1 (s.verticals.length - 1 : Nat)
        (¬ RunReady edited → exec request s = .next (edited.answered .done 0x30 answer)) ∧
        ∀ i v, RunReady edited → FirstMeasured edited.verticals i v → CanDepart s v →
          ∃ t, exec request s = .next t ∧ t.verticals = edited.verticals ∧
            t.port.slot = some { status := .done, code := 0x30, body := answer } ∧ RunBegins i v s t))

/-! ### The cableway -/

/-- R105, R106: HOME CARRIAGE is checked, and begins homing with the raise, or with the next phase when Top is asserted;
with Top and Home asserted under CableInhibit the counter is loaded with 0 and the carriage Parked at once. -/
def Obligations.HomeCarriageBeginsHoming : Prop :=
  ∀ (s : State), s.resetHeld = false → s.port.ignoring = false → s.port.slot = none →
    let c := s.cable
    let under := s.gauging.run.state = .armed ∨ s.gauging.run.state = .running ∨ s.gauging.run.state = .returning
    let traverse := { c.traverse with on := false, start := none, jam := 0 }
    let hoist := { c.hoist with on := false, start := none, jam := 0 }
    let begun := fun (x : Cableway) => exec (.homeCarriage []) s = .next (({ s with
      cable := { x with state := .homing, recovering := false } } : State).answered .accepted 0x38 [])
    (s.port.cablewayFitted = .low → exec (.homeCarriage []) s = .next (s.answered .refused 0x38 [9, 0])) ∧
    (s.port.cablewayFitted = .high →
      (under ∨ (c.state ≠ .unhomed ∧ c.state ≠ .parked) →
        exec (.homeCarriage []) s = .next (s.answered .refused 0x38 [4, 0])) ∧
      (¬ under → (c.state = .unhomed ∨ c.state = .parked) →
        (s.asserted .top = false → begun { c with
          activity := .homing .raise, traverse := traverse, hoist := { hoist with start := some .up } }) ∧
        (s.asserted .top = true → s.asserted .home = false → begun { c with
          activity := .homing .find, traverse := { traverse with start := some .inward }, hoist := hoist }) ∧
        (s.asserted .top = true → s.asserted .home = true → s.warning.effects.cableInhibit = [] → begun { c with
          activity := .homing .release, traverse := { traverse with start := some .outward }, hoist := hoist }) ∧
        (s.asserted .top = true → s.asserted .home = true → s.warning.effects.cableInhibit ≠ [] →
          exec (.homeCarriage []) s = .next (({ s with cable := { c with
            state := .parked, activity := .idle, recovering := false, traverseCount := 0, traverse := traverse,
            hoist := hoist } } : State).answered .accepted 0x38 []))))

/-- R110: CLEAR FAULT. -/
def Obligations.ClearFaultLeavesTheCarriageUnhomed : Prop :=
  ∀ (s : State), s.resetHeld = false → s.port.ignoring = false → s.port.slot = none →
    (s.cable.state ≠ .halted → exec (.clearFault []) s = .next (s.answered .refused 0x39 [4, 0])) ∧
    (s.cable.state = .halted →
      let t := { s with cable := { s.cable with state := .unhomed, haltedKnown := false } }
      exec (.clearFault []) s = .next (t.answered .done 0x39 []) ∧ t.knownPosition = none ∧
      t.cable.lastFault = s.cable.lastFault ∧ t.cable.traverseCount = s.cable.traverseCount ∧
      t.cable.depthCount = s.cable.depthCount ∧ t.gauging = s.gauging)

/-- R93 to R97, R104, R107 to R109, R111, R112, R135: a waiting drive starts at a period boundary where the interlocks
permit it, a drive that is on takes the duty in force there, a change of an encoder moves its counter and restarts the jam
timer, a contact takes its level, and a jam or a snag, also that of a drive which starts while Snag is asserted, halts the
carriage, with the end of a run whose movement it ends; a jam of a drive that is off does nothing (LOG 4: the model's
choice). That the direction line changes at the boundary (LOG 21) and which end fields a fault stamps (LOG 22) are the
model's inferences. What the same events do to a movement in progress is stated in `MovementsEndAtLineEvents`. -/
def Obligations.CablewayLineEvents : Prop :=
  ∀ (s : State), s.resetHeld = false →
    let c := s.cable
    let run := s.gauging.run
    -- R94, R105
    let duty := match c.activity with
      | .homing _ => s.settings.read .traverseSlowDuty
      | _ => if c.slow = true then s.settings.read .traverseSlowDuty else s.settings.read .traverseFastDuty
    let traversing := fun (way : TraverseWay) => { c with
      traverse := { on := true, way := way, start := none, jam := 0, duty := duty } }
    let hoisting := fun (way : HoistWay) => { c with
      hoist := { on := true, way := way, start := none, jam := 0, duty := s.settings.read .hoistDuty } }
    -- R104, R111, R112
    let mayTraverse := fun (way : TraverseWay) => s.port.cablewayFitted = .high ∧ s.asserted .top = true ∧
      (way = .outward → s.warning.effects.cableInhibit = [])
    let mayHoist := fun (way : HoistWay) => s.port.cablewayFitted = .high ∧
      (way = .down → s.warning.effects.cableInhibit = [])
    (c.traverse.on = false → c.traverse.start = none → c.hoist.on = false → c.hoist.start = none →
      exec .drivePeriodBoundary s = .next s) ∧
    (∀ way : TraverseWay, c.traverse.start = some way → c.hoist.on = false → c.hoist.start = none →
      (mayTraverse way → s.asserted .snag = false → exec .drivePeriodBoundary s =
        .next { s with cable := traversing way }) ∧
      (c.traverse.on = false → ¬ mayTraverse way → exec .drivePeriodBoundary s = .next s)) ∧
    (∀ way : HoistWay, c.hoist.start = some way → c.traverse.on = false → c.traverse.start = none →
      (mayHoist way → s.asserted .snag = false → exec .drivePeriodBoundary s =
        .next { s with cable := hoisting way }) ∧
      (c.hoist.on = false → ¬ mayHoist way → exec .drivePeriodBoundary s = .next s)) ∧
    (c.traverse.on = true → c.traverse.start = none → c.hoist.on = false → c.hoist.start = none →
      s.asserted .snag = false → exec .drivePeriodBoundary s =
        .next { s with cable := { c with traverse := { c.traverse with duty := duty } } }) ∧
    (c.hoist.on = true → c.hoist.start = none → c.traverse.on = false → c.traverse.start = none →
      s.asserted .snag = false → exec .drivePeriodBoundary s =
        .next { s with cable := { c with hoist := { c.hoist with duty := s.settings.read .hoistDuty } } }) ∧
    (∀ e : QuadratureEdge, c.activity = .idle →
      let count := fun (n : Word) => if e.changed = .both then n else movedCount e n
      let jam := fun (n : Nat) => if e.changed = .both then n else 0
      exec (.traverseCountChange e) s = .next { s with cable := { c with
        traverseCount := count c.traverseCount, traverse := { c.traverse with jam := jam c.traverse.jam } } } ∧
      exec (.depthCountChange e) s = .next { s with cable := { c with
        depthCount := count c.depthCount, hoist := { c.hoist with jam := jam c.hoist.jam } } }) ∧
    (∀ (k : Contact) (v : Level), c.activity = .idle → c.traverse.on = false → c.traverse.start = none →
      c.traverse.jam = 0 → c.hoist.on = false → k ≠ .home →
      exec (.contactChange k v) s = .next { s with cable := { c with contacts := withLevel c.contacts k v } }) ∧
    (let halted := fun (kind : FaultKind) (x : Cableway) => { x with
        state := .halted, haltedKnown := s.knownPosition.isSome, activity := .idle, recovering := false,
        traverse := { x.traverse with on := false, start := none, jam := 0 },
        hoist := { x.hoist with on := false, start := none, jam := 0 },
        lastFault := some { kind := kind, state := c.state, position := s.knownPosition, depth := s.depth,
                            time := s.clock } }
     let alone := fun (kind : FaultKind) (x : Cableway) => { s with
        cable := halted kind x, port := { s.port with attention := s.port.attention ||| 0x800 } }
     let ended := fun (kind : FaultKind) (x : Cableway) (reason : EndReason) (fault : RunFault) => { s with
        cable := halted kind x,
        gauging := { s.gauging with
          run := { (match run.endReason with
              | none => { run with endReason := some reason, endTime := some s.clock, endStage := s.stage.record.stage }
              | some _ => { run with fault := some fault }) with
            state := .aborted, step := none, current := none, triggerMet := none, waitRemaining := none },
          visit := [], dwell := none },
        port := { s.port with attention := s.port.attention ||| 0xC00 } }
     let resting := run.state ≠ .running ∧ run.state ≠ .returning ∨ ∀ m, c.activity ≠ .moving m
     let moving := (run.state = .running ∨ run.state = .returning) ∧ ∃ m, c.activity = .moving m
     -- a snag that an event takes on a cableway
     let snags := fun (i : Instr) (x : Cableway) =>
       (resting → exec i s = .next (alone .snag x)) ∧ (moving → exec i s = .next (ended .snag x .snag .snag))
     (∀ d : DriveName, (if d = .traverse then c.traverse.on else c.hoist.on) = true →
       (resting → exec (.jam d) s = .next (alone (.jam d) c)) ∧
       (moving → exec (.jam d) s = .next (ended (.jam d) c .jam .jam))) ∧
     (∀ v : Level, v ≠ c.contacts.snag → v = levelOfSetting (s.settings.read .snagLevel) →
       c.traverse.on = true ∨ c.hoist.on = true →
       snags (.contactChange .snag v) { c with contacts := { c.contacts with snag := v } }) ∧
     (∀ way : TraverseWay, c.traverse.start = some way → c.hoist.on = false → c.hoist.start = none →
       mayTraverse way → s.asserted .snag = true → snags .drivePeriodBoundary (traversing way)) ∧
     ∀ way : HoistWay, c.hoist.start = some way → c.traverse.on = false → c.traverse.start = none →
       mayHoist way → s.asserted .snag = true → snags .drivePeriodBoundary (hoisting way)) ∧
    ∀ d : DriveName, (if d = .traverse then c.traverse.on else c.hoist.on) = false → exec (.jam d) s = .next s

/-- R95 to R97, R99 to R105: what an active edge of Home, a change of an encoder, a wet edge, Bottom, Top asserted and
Top released do to a movement in progress: the counters loaded, the ends of the movement with the result handed to the
Gauging Unit, the carry recovery. That a waiting traverse recovers too and an Outward one whose recovery ends under
CableInhibit ends with Inhibited (LOG 15), and that the surface search is measured as a signed count (LOG 25), are the
model's inferences. -/
def Obligations.MovementsEndAtLineEvents : Prop :=
  ∀ (s : State), s.resetHeld = false →
    let c := s.cable
    let off := fun (x : Cableway) => { x with
      recovering := false,
      traverse := { x.traverse with on := false, start := none, jam := 0 },
      hoist := { x.hoist with on := false, start := none, jam := 0 } }
    -- a movement that ends with a result, and what stays as it is but for the cableway
    let ends := fun (i : Instr) (x : Cableway) (state : CarriageState) (r : MoveResult) =>
      exec i s = .next (deliver
        { state := { s with cable := { off x with state := state, activity := .idle } }, result := some r })
    let goesOn := fun (i : Instr) (x : Cableway) => exec i s = .next { s with cable := x }
    let asserts := fun (k : Contact) (v : Level) =>
      v ≠ levelAt c.contacts k ∧ v = levelOfSetting (s.settings.read (levelSetting k))
    let releases := fun (k : Contact) (v : Level) =>
      v ≠ levelAt c.contacts k ∧ v ≠ levelOfSetting (s.settings.read (levelSetting k))
    let positionOf := fun (count : Word) =>
      max (-1000) (min (s.settings.read .homeOffset +
        roundHalfUp (count.toInt * 100) (s.settings.read .traverseCountsPerMetre)) 30000)
    let depthOf := fun (count : Word) =>
      max (-30000) (min (roundHalfUp (count.toInt * 1000) (s.settings.read .hoistCountsPerMetre)) 30000)
    let arrived := fun (target : Int) (way : TraverseWay) (position : Int) =>
      (way = .outward ∧ target - 5 ≤ position) ∨ (way = .inward ∧ position ≤ target + 5)
    let slow := fun (target position : Int) =>
      decide (((position - target).natAbs : Int) ≤ (s.settings.read .slowZone).toNat)
    -- R95, R100, R101, R105: an active edge of Home
    (∀ v, asserts .home v →
      let x := { c with contacts := { c.contacts with home := v }, traverseCount := 0,
                        traverse := { c.traverse with jam := 0 } }
      (c.activity = .moving .goHome → ends (.contactChange .home v) x .parked .home) ∧
      (c.activity = .homing .find →
        goesOn (.contactChange .home v) { off x with state := .parked, activity := .idle }) ∧
      (∀ target way, c.activity = .moving (.traverseTo target way) →
        (arrived target way (positionOf 0) → ends (.contactChange .home v) x .holding .arrived) ∧
        (¬ arrived target way (positionOf 0) →
          goesOn (.contactChange .home v) { x with slow := slow target (positionOf 0) })) ∧
      ((∀ target way, c.activity ≠ .moving (.traverseTo target way)) → c.activity ≠ .moving .goHome →
        c.activity ≠ .homing .find → goesOn (.contactChange .home v) x)) ∧
    -- R95, R100: a change of the traverse count
    (∀ (e : QuadratureEdge) (target : Int) (way : TraverseWay), e.changed ≠ .both →
      c.activity = .moving (.traverseTo target way) →
      let count := movedCount e c.traverseCount
      let x := { c with traverseCount := count, traverse := { c.traverse with jam := 0 } }
      (arrived target way (positionOf count) → ends (.traverseCountChange e) x .holding .arrived) ∧
      (¬ arrived target way (positionOf count) →
        goesOn (.traverseCountChange e) { x with slow := slow target (positionOf count) })) ∧
    -- R96, R102, R103: a change of the depth count
    (∀ (e : QuadratureEdge), e.changed ≠ .both →
      let count := movedCount e c.depthCount
      let x := { c with depthCount := count, hoist := { c.hoist with jam := 0 } }
      let i := Instr.depthCountChange e
      (∀ target stop start wet, c.activity = .moving (.lowerTo target stop start wet) →
        let lost := s.searchCounts ≤ (count - start).toInt
        (s.asserted .bottom = true → ends i x .holding (.lowered (.bottomContact (depthOf count) wet) stop)) ∧
        (s.asserted .bottom = false → wet = true → target ≤ depthOf count →
          ends i x .holding (.lowered .reached stop)) ∧
        (s.asserted .bottom = false → wet = false → lost → ends i x .holding (.lowered .noSurface stop)) ∧
        (s.asserted .bottom = false → wet = true ∧ depthOf count < target ∨ wet = false ∧ ¬ lost → goesOn i x)) ∧
      ∀ target, c.activity = .moving (.raiseTo target) →
        (depthOf count ≤ target → ends i x .holding .reached) ∧ (target < depthOf count → goesOn i x)) ∧
    -- R96, R102: a wet edge, and Bottom
    (∀ target stop start wet, c.activity = .moving (.lowerTo target stop start wet) →
      (∀ v, asserts .surface v → c.state = .lowering →
        let x := { c with contacts := { c.contacts with surface := v }, depthCount := 0,
                          hoist := { c.hoist with jam := 0 },
                          activity := .moving (.lowerTo target stop start true) }
        (s.asserted .bottom = true →
          ends (.contactChange .surface v) x .holding (.lowered (.bottomContact (depthOf 0) true) stop)) ∧
        (s.asserted .bottom = false → target ≤ depthOf 0 →
          ends (.contactChange .surface v) x .holding (.lowered .reached stop)) ∧
        (s.asserted .bottom = false → depthOf 0 < target → goesOn (.contactChange .surface v) x)) ∧
      ∀ v, asserts .bottom v →
        ends (.contactChange .bottom v) { c with contacts := { c.contacts with bottom := v } } .holding
          (.lowered (.bottomContact (depthOf c.depthCount) wet) stop)) ∧
    -- R103: Top ends a raise to the top
    (∀ v, asserts .top v → c.activity = .moving .raiseToTop →
      ends (.contactChange .top v) { c with contacts := { c.contacts with top := v } } .holding .atTop) ∧
    -- R104: the carry law and the carry recovery of a traverse
    (∀ way, (∃ target, c.activity = .moving (.traverseTo target way)) ∨ c.activity = .moving .goHome ∧ way = .inward →
      (∀ v, releases .top v → c.recovering = false →
        goesOn (.contactChange .top v) { c with
          contacts := { c.contacts with top := v }, recovering := true,
          traverse := { c.traverse with on := false, start := none, jam := 0 },
          hoist := { c.hoist with on := false, start := some .up, jam := 0 } }) ∧
      ∀ v, asserts .top v → c.recovering = true →
        let x := { c with contacts := { c.contacts with top := v } }
        (way = .outward → s.warning.effects.cableInhibit ≠ [] →
          ends (.contactChange .top v) x .holding .inhibited) ∧
        (way = .inward ∨ s.warning.effects.cableInhibit = [] →
          goesOn (.contactChange .top v) { off x with
            traverse := { c.traverse with on := false, start := some way, jam := 0 } })) ∧
    -- R105: the ends of the first two phases of homing
    (∀ v, asserts .top v → c.activity = .homing .raise →
      let x := { c with contacts := { c.contacts with top := v } }
      (s.asserted .home = false →
        goesOn (.contactChange .top v) { off x with
          activity := .homing .find,
          traverse := { c.traverse with on := false, start := some .inward, jam := 0 } }) ∧
      (s.asserted .home = true → s.warning.effects.cableInhibit = [] →
        goesOn (.contactChange .top v) { off x with
          activity := .homing .release,
          traverse := { c.traverse with on := false, start := some .outward, jam := 0 } }) ∧
      (s.asserted .home = true → s.warning.effects.cableInhibit ≠ [] →
        goesOn (.contactChange .top v) { off x with state := .parked, activity := .idle, traverseCount := 0 })) ∧
    ∀ v, releases .home v → c.activity = .homing .release → s.asserted .top = true →
      goesOn (.contactChange .home v) { off c with
        contacts := { c.contacts with home := v }, activity := .homing .find,
        traverse := { c.traverse with on := false, start := some .inward, jam := 0 } }

/-! ### Gauging runs -/

/-- R114, R122, R132, R133: SET METER, its query and the values that refuse it, ABORT RUN and the end of the wait, which
does nothing where no run is Armed (LOG 4: the model's choice). The abort of a Running run stops a traverse or a lowering,
ends a dwell, lets a raise run to its end, and brings the weight up and the carriage home; at the contact of Home with the
weight up the run is over. The step while the raise of Place or Stow runs to its end is the model's choice (LOG 35). -/
def Obligations.MeterAbortAndWait : Prop :=
  ∀ (s : State), s.resetHeld = false →
    let run := s.gauging.run
    let ended := fun (reason : EndReason) (state : RunState) =>
      ({ s with
          gauging := { s.gauging with
            run := { run with state := state, endReason := some reason, endTime := some s.clock,
                              endStage := s.stage.record.stage, step := none, current := none, triggerMet := none,
                              waitRemaining := none },
            visit := [], dwell := none },
          port := { s.port with attention := s.port.attention ||| 0x400 } } : State)
    (run.state = .armed → exec .waitExpiry s = .next (ended .expired .expired)) ∧
    (run.state ≠ .armed → exec .waitExpiry s = .next s) ∧
    (s.port.ignoring = false → s.port.slot = none →
      (run.state = .armed → exec (.abortRun []) s = .next ((ended .cancelled .aborted).answered .done 0x3C [])) ∧
      (run.state = .running →
        let c := s.cable
        let left := fun (state : RunState) (step : Option Step) => { run with
          state := state, step := step, current := none, endReason := some (run.endReason.getD .cancelled),
          endTime := some s.clock, endStage := s.stage.record.stage }
        let aborted := fun (t : State) (record : RunRecord) =>
          exec (.abortRun []) s = .next t ∧ t.port.slot = some { status := .done, code := 0x3C, body := [] } ∧
          t.gauging.run = record ∧ t.gauging.dwell = none ∧ t.verticals = s.verticals
        let stopped := c.activity = .idle ∧ c.state = .holding ∨
          (∃ target way, c.activity = .moving (.traverseTo target way)) ∨
          ∃ target stop start wet, c.activity = .moving (.lowerTo target stop start wet)
        let off := fun (t : State) => t.cable.traverse.on = false ∧ t.cable.hoist.on = false
        (stopped → s.asserted .top = false → ∃ t, aborted t (left .returning (some .returnRaise)) ∧ off t ∧
          t.cable.state = .raising ∧ t.cable.activity = .moving .raiseToTop ∧ t.cable.hoist.start = some .up) ∧
        (stopped → s.asserted .top = true → s.asserted .home = false →
          ∃ t, aborted t (left .returning (some .returnHome)) ∧ off t ∧ t.cable.state = .traversing ∧
            t.cable.activity = .moving .goHome ∧ t.cable.traverse.start = some .inward) ∧
        (stopped → s.asserted .top = true → s.asserted .home = true →
          ∃ t, aborted t { left .aborted none with triggerMet := none, waitRemaining := none } ∧ off t ∧
            t.cable.state = .parked ∧ t.cable.activity = .idle ∧ t.attends .runEnded = true) ∧
        (c.activity = .moving .raiseToTop ∨ (∃ target, c.activity = .moving (.raiseTo target)) →
          ∃ t, aborted t (left .returning (some .returnRaise)) ∧ t.cable = c)) ∧
      (run.state ≠ .armed → run.state ≠ .running → exec (.abortRun []) s = .next (s.answered .refused 0x3C [4, 0])) ∧
      (let m := s.gauging.meter
       exec (.setMeter []) s = .next (s.answered .done 0x3A
        (be1 m.pulsesPerRevolution ++ be2 m.offset ++ be2 m.slope ++ be1 m.minimumRevolutions))) ∧
      (∀ pulses offset slope minimum : Word,
        let badField := fun (detail : Byte) => exec (.setMeter (paramBytes [pulses, offset, slope, minimum])) s =
          .next (s.answered .refused 0x3A [3, detail])
        let p0 := 1 ≤ pulses.toInt ∧ pulses.toInt ≤ 8
        let p1 := 0 ≤ offset.toInt ∧ offset.toInt ≤ 1000
        let p2 := 1 ≤ slope.toInt ∧ slope.toInt ≤ 5000
        let p3 := 0 ≤ minimum.toInt ∧ minimum.toInt ≤ 255
        (¬ p0 → badField 0) ∧ (p0 → ¬ p1 → badField 1) ∧ (p0 → p1 → ¬ p2 → badField 2) ∧
        (p0 → p1 → p2 → ¬ p3 → badField 3)) ∧
      (∀ m : MeterSettings, 1 ≤ m.pulsesPerRevolution → m.pulsesPerRevolution ≤ 8 → 0 ≤ m.offset → m.offset ≤ 1000 →
        1 ≤ m.slope → m.slope ≤ 5000 → 0 ≤ m.minimumRevolutions → m.minimumRevolutions ≤ 255 →
        let request := Instr.setMeter (paramBytes [BitVec.ofInt 32 m.pulsesPerRevolution, BitVec.ofInt 32 m.offset,
          BitVec.ofInt 32 m.slope, BitVec.ofInt 32 m.minimumRevolutions])
        (run.state = .running ∨ run.state = .returning → exec request s = .next (s.answered .refused 0x3A [4, 0])) ∧
        (run.state ≠ .running → run.state ≠ .returning → exec request s =
          .next (({ s with gauging := { s.gauging with meter := m } } : State).answered .done 0x3A
            (be1 m.pulsesPerRevolution ++ be2 m.offset ++ be2 m.slope ++ be1 m.minimumRevolutions)))))

/-- R120, R123, R124: START RUN is refused by the first of its checks that fails; it replaces the record, Armed for
AtStage, Running at once for Immediate; under CableInhibit an Immediate run ends Aborted without moving (R123). An
Immediate request may carry the two parameters it does not use (LOG 13), and the run under CableInhibit asks for no
movement (LOG 14): the model's inferences. -/
def Obligations.StartRunArmsOrRuns : Prop :=
  ∀ (s : State), s.resetHeld = false → s.port.ignoring = false → s.port.slot = none →
    let refused := fun (params : List Byte) (why detail : Byte) =>
      exec (.startRun params) s = .next (s.answered .refused 0x3B [why, detail])
    let underWay := s.gauging.run.state = .armed ∨ s.gauging.run.state = .running ∨
      s.gauging.run.state = .returning
    let measured := (s.verticals.filter fun v => v.skip == .measure).length
    let trigger := fun (w : Word) => -2000 ≤ w.toInt ∧ w.toInt ≤ 30000
    let wait := fun (w : Word) => 1 ≤ w.toInt ∧ w.toInt ≤ 172800
    let id := s.gauging.nextId
    let next := if id = 65535 then 1 else id + 1
    (∀ a b c : Word, (a ≠ 0 → refused (paramBytes [a]) 3 0) ∧ (1 < a.toNat → refused (paramBytes [a, b, c]) 3 0) ∧
      (¬ trigger b → refused (paramBytes [1, b, c]) 3 1) ∧
      (trigger b → ¬ wait c → refused (paramBytes [1, b, c]) 3 2)) ∧
    (∀ params : List Byte,
      (params = paramBytes [0] ∨ (∃ b c, params = paramBytes [0, b, c]) ∨
        ∃ b c, trigger b ∧ wait c ∧ params = paramBytes [1, b, c]) →
      (s.port.cablewayFitted = .low → refused params 9 0) ∧
      (s.port.cablewayFitted = .high → underWay ∨ s.cable.state ≠ .parked ∨ measured < 2 →
        refused params 4 0)) ∧
    (s.port.cablewayFitted = .high → ¬ underWay → s.cable.state = .parked → 2 ≤ measured →
      (∀ b c : Word, trigger b → wait c →
        exec (.startRun (paramBytes [1, b, c])) s = .next (({ s with gauging := { s.gauging with
          run := { RunRecord.none with
            id := some id, state := .armed, startCondition := some (.atStage b.toInt c.toNat),
            triggerMet := some false, waitRemaining := some c.toNat },
          nextId := next } } : State).answered .accepted 0x3B (be2 id.toNat))) ∧
      ∀ (i : Nat) (v : Vertical), FirstMeasured s.verticals i v →
        ∃ t, exec (.startRun (paramBytes [0])) s = .next t ∧
          t.port.slot = some { status := .accepted, code := 0x3B, body := be2 id.toNat } ∧
          t.gauging.run.id = some id ∧ t.gauging.nextId = next ∧ t.gauging.run.startTime = some s.clock ∧
          t.attends .runStarted = true ∧
          (s.warning.effects.cableInhibit = [] → CanDepart s v → RunBegins i v s t) ∧
          (s.warning.effects.cableInhibit ≠ [] → s.cable.activity = .idle →
            t.gauging.run.state = .aborted ∧ t.gauging.run.endReason = some .inhibited ∧
            t.attends .runEnded = true ∧ t.cable = s.cable))

/-- R121, R123: an Armed run starts at the publication that meets its trigger, at the instant CableInhibit leaves, or at
the section edit that gives it two Measure verticals, once its trigger is met with no inhibit present; until then it
stays Armed. The publication at which CableInhibit enters is left out: the order is the spec's to leave open (LOG 9). -/
def Obligations.ArmedRunStartsWhenReady : Prop :=
  (∀ (i : Nat) (v : Vertical) (s : State), s.resetHeld = false → s.gauging.run.state = .armed → CanDepart s v →
    FirstMeasured s.verticals i v → 2 ≤ (s.verticals.filter fun v => v.skip == .measure).length →
    let run := s.gauging.run
    let inhibit := s.warning.effects.cableInhibit
    (∀ (trigger : Int) (wait : Nat), run.startCondition = some (.atStage trigger wait) →
      ∃ t, exec .stageIntervalExpiry s = .next t ∧
        let met := run.triggerMet = some true ∨
          ((t.stage.record.quality = .good ∨ t.stage.record.quality = .failover) ∧
            ∃ h, t.stage.record.stage = some h ∧ trigger ≤ h)
        (met → t.warning.effects.cableInhibit = [] → RunBegins i v s t) ∧
        (met → inhibit ≠ [] → t.warning.effects.cableInhibit ≠ [] →
          t.gauging.run = { run with triggerMet := some true } ∧ t.cable = s.cable) ∧
        (¬ met → t.gauging.run = run)) ∧
    ∀ (k : Fin 16) (r : Rule) (c : Instr), s.port.ignoring = false → s.port.slot = none →
      run.triggerMet = some true → inhibit ≠ [] →
      s.warning.rules.get k = some r → r.state ≠ .disarmed →
      (c = .disarmRule (beWord (BitVec.ofNat 32 k.val)) ∨ c = .retireRule (beWord (BitVec.ofNat 32 k.val))) →
      ∃ t, exec c s = .next t ∧ (t.warning.effects.cableInhibit = [] → RunBegins i v s t) ∧
        (t.warning.effects.cableInhibit ≠ [] → t.gauging = s.gauging ∧ t.cable = s.cable)) ∧
  ∀ (d b : Word) (plan : MeasurePlan) (flag : SkipFlag) (i : Nat) (v : Vertical) (s : State), s.resetHeld = false →
    s.port.ignoring = false → s.port.slot = none →
    let c := s.port.cursor
    let added : Vertical := { distance := d.toInt, bed := b.toInt, plan := plan, skip := flag, source := .survey,
                              soundedTime := none }
    let edited := s.verticals.take c.index ++ [added] ++ s.verticals.drop (c.index + 1)
    c.table = .verticals → c.fields = [d, b, BitVec.ofInt 32 plan.code] →
    s.settings.read .spanStart ≤ d.toInt → d.toInt ≤ s.settings.read .spanEnd →
    -2000 ≤ b.toInt → b.toInt ≤ 30000 → c.index ≤ s.verticals.length →
    (∀ v, 0 < c.index → s.verticals[c.index - 1]? = some v → v.distance < d.toInt) →
    (∀ v, s.verticals[c.index + 1]? = some v → d.toInt < v.distance) →
    RunReady { s with verticals := edited } → FirstMeasured edited i v → CanDepart s v →
    ∃ t, exec (.writeFields (beWord (BitVec.ofInt 32 flag.code))) s = .next t ∧ t.verticals = edited ∧
      t.port.slot = some { status := .done, code := 0x21, body := be1 ((c.index + 1) % 32 : Nat) ++ [0, 1] } ∧
      t.port.cursor = { c with index := (c.index + 1) % 32, fields := [] } ∧ RunBegins i v s t

/-- R86, R100, R124: the arrival at the current vertical of a run. With quality None the run returns with StageLost; a
depth below the minimum makes the vertical Dry; else the weight goes down, to the surface depth under SurfaceOnly or a
SurfaceOnly plan, and else on a sounding that stops at Bottom. Stated with the weight in the air and no inhibit.
R128, R129: a vertical found Dry on arrival, and one whose weight is stowed, is finished: the run goes on to the next
Measure vertical, or home after the last, with the Skip verticals it passes entered. -/
def Obligations.ArrivalBeginsAVertical : Prop :=
  let goingHome := fun (s t : State) =>
    t.gauging.run.state = .returning ∧ t.gauging.run.step = some .returnHome ∧ t.gauging.run.current = none ∧
    t.gauging.run.endTime = some s.clock ∧ t.cable.state = .traversing ∧ t.cable.activity = .moving .goHome ∧
    t.cable.traverse.start = some .inward ∧ t.cable.hoist.on = false
  -- the results after a vertical of the section is finished: those up to it and the Skip verticals passed
  let recorded := fun (s t : State) (upTo : List Entry) (last : Int) (below : Option Int) =>
    ∃ skipped, PassedOver s.verticals (some last) below skipped ∧ t.gauging.run.results = upTo ++ skipped
  let onTheWay := fun (t : State) (j : Nat) (w : Vertical) =>
    t.gauging.run.state = .running ∧ t.gauging.run.step = some .traverse ∧ t.gauging.run.current = some j ∧
    t.cable.state = .traversing ∧ t.cable.activity = .moving (.traverseTo w.distance .outward) ∧
    t.cable.traverse.start = some .outward
  (∀ (e : QuadratureEdge) (target : Int) (way : TraverseWay) (i : Nat) (v : Vertical) (s : State),
    s.resetHeld = false → e.changed ≠ .both → s.cable.activity = .moving (.traverseTo target way) →
    s.gauging.run.state = .running → s.gauging.run.step = some .traverse → s.gauging.run.current = some i →
    s.verticals[i]? = some v → s.warning.effects.cableInhibit = [] → s.asserted .top = true →
    s.asserted .home = false → s.asserted .surface = false → s.asserted .bottom = false → 0 < s.searchCounts →
    let run := s.gauging.run
    let record := s.stage.record
    let count := movedCount e s.cable.traverseCount
    let position := max (-1000) (min (s.settings.read .homeOffset +
      roundHalfUp (count.toInt * 100) (s.settings.read .traverseCountsPerMetre)) 30000)
    let traverse := { s.cable.traverse with on := false, start := none, jam := 0 }
    let hoist := { s.cable.hoist with on := false, start := none, jam := 0 }
    (way = .outward ∧ target - 5 ≤ position ∨ way = .inward ∧ position ≤ target + 5) →
    (record.quality = .none → ∃ t, exec (.traverseCountChange e) s = .next t ∧ goingHome s t ∧
      t.gauging.run.endReason = some (run.endReason.getD .stageLost) ∧ t.gauging.run.results = run.results) ∧
    ∀ stage, record.quality ≠ .none → record.stage = some stage →
      let depth := max 0 (min (stage - v.bed) 30000)
      let entry : Entry := { index := i, distance := v.distance, arrivalStage := some stage, depthUsed := none,
                             soundedDepth := none, points := [], mean := none, discharge := none, dry := false,
                             surfaceOnly := false, noBottom := false, bedUpdated := false, skipped := false }
      let lowers := fun (step : Step) (down : Int) (stop : Bool) (flags : RunFlags) =>
        exec (.traverseCountChange e) s = .next { s with
          cable := { s.cable with
            state := .lowering, traverseCount := count, recovering := false,
            activity := .moving (.lowerTo down stop s.cable.depthCount false),
            traverse := traverse, hoist := { hoist with start := some .down } },
          gauging := { s.gauging with
            arrivalDepth := depth,
            run := { run with
              step := some step, startStage := some (run.startStage.getD stage), flags := flags,
              results := run.results ++ [entry] } } }
      let surface := s.warning.effects.surfaceOnly ≠ []
      (s.settings.read .minimumDepth ≤ depth →
        (surface → lowers .surfaceLower 100 false { run.flags with surfaceUsed := true }) ∧
        (¬ surface → v.plan = .surfaceOnly → lowers .surfaceLower 100 false run.flags) ∧
        (¬ surface → v.plan ≠ .surfaceOnly → lowers .sound (min 30000 (depth + 1000)) true run.flags)) ∧
      (depth < s.settings.read .minimumDepth →
        let dry := { entry with depthUsed := some depth, mean := some 0, dry := true }
        ((∀ j ∈ s.gauging.visit, j ≤ i) → ∃ t, exec (.traverseCountChange e) s = .next t ∧
          recorded s t (run.results ++ [dry]) v.distance none ∧ goingHome s t ∧
          t.gauging.run.endReason = run.endReason ∧ t.gauging.run.endStage = some stage) ∧
        ∀ j w, s.gauging.visit.find? (fun k => decide (i < k)) = some j → s.verticals[j]? = some w →
          position < w.distance - 5 →
          ∃ t, exec (.traverseCountChange e) s = .next t ∧ onTheWay t j w ∧
            recorded s t (run.results ++ [dry]) v.distance (some w.distance))) ∧
  ∀ (level : Level) (i : Nat) (es : List Entry) (x : Entry) (s : State), s.resetHeld = false →
    s.cable.activity = .moving .raiseToTop → s.gauging.run.state = .running → s.gauging.run.step = some .stow →
    s.gauging.run.current = some i → s.gauging.run.results = es ++ [x] → s.warning.effects.cableInhibit = [] →
    level ≠ s.cable.contacts.top → level = levelOfSetting (s.settings.read .topLevel) → s.asserted .home = false →
    let run := s.gauging.run
    ((∀ j ∈ s.gauging.visit, j ≤ i) → ∃ t, exec (.contactChange .top level) s = .next t ∧
      recorded s t run.results x.distance none ∧ goingHome s t ∧ t.gauging.run.endReason = run.endReason ∧
      t.gauging.run.endStage = s.stage.record.stage.or x.arrivalStage) ∧
    ∀ j w, s.gauging.visit.find? (fun k => decide (i < k)) = some j → s.verticals[j]? = some w →
      s.position < w.distance - 5 →
      ∃ t, exec (.contactChange .top level) s = .next t ∧ onTheWay t j w ∧
        recorded s t run.results x.distance (some w.distance)

/-- R87 to R89, R102, R125, R126: the end of a lowering of a run. A sounding's Bottom in the water gives the depth, and
with a Good stage the table takes it, replacing a bed further off than the tolerance; where the sounded bed is above
+30,000 the spec gives no value and the model keeps what the subtraction gives (LOG 30). A target reached without Bottom
leaves NoBottom; no surface found (the search measured as a signed count, LOG 25: the model's inference) leaves the
vertical Dry; a surface lowering that ends in the water begins a dwell. -/
def Obligations.SoundingsAndSurfaceLoweringsEnd : Prop :=
  ∀ (target : Int) (stop wet : Bool) (start : Word) (i : Nat) (v : Vertical) (es : List Entry) (x : Entry) (s : State),
    s.resetHeld = false → s.cable.activity = .moving (.lowerTo target stop start wet) →
    s.gauging.run.state = .running → s.gauging.run.current = some i → s.verticals[i]? = some v →
    s.gauging.run.results = es ++ [x] → x.points = [] → s.asserted .top = false →
    let run := s.gauging.run
    let record := s.stage.record
    let depthOf := fun (count : Word) =>
      max (-30000) (min (roundHalfUp (count.toInt * 1000) (s.settings.read .hoistCountsPerMetre)) 30000)
    let stowed := fun (t : State) => t.gauging.run.step = some .stow ∧ t.cable.activity = .moving .raiseToTop ∧
      t.cable.state = .raising ∧ t.cable.hoist.start = some .up
    -- the first point of the plan, at a fraction of the depth, for a weight at some depth
    let placed := fun (t : State) (depth used : Int) =>
      let point := roundHalfUp (used * if v.plan = .single then 6 else 8) 10
      (point < depth → t.gauging.run.step = some .place ∧ t.cable.activity = .moving (.raiseTo point) ∧
        t.cable.state = .raising ∧ t.cable.hoist.start = some .up) ∧
      (depth ≤ point → t.gauging.run.step = some .dwell ∧ t.cable.state = .holding ∧ t.gauging.dwell =
        some { length := (s.settings.read .dwell).toNat, elapsed := 0, pulses := 0, surface := false })
    let dry := { x with depthUsed := some s.gauging.arrivalDepth, mean := some 0, dry := true }
    -- Bottom
    (∀ level, level ≠ s.cable.contacts.bottom → level = levelOfSetting (s.settings.read .bottomLevel) →
      ∃ t, exec (.contactChange .bottom level) s = .next t ∧
        let depth := depthOf s.cable.depthCount
        (stop = true → wet = true →
          let found := fun (updated : Bool) =>
            let e := { x with soundedDepth := some depth, depthUsed := some depth, bedUpdated := updated }
            if depth < s.settings.read .minimumDepth then { e with mean := some 0, dry := true } else e
          (∀ stage, record.quality = .good → record.stage = some stage →
            let bed := max (-2000) (stage - depth)
            let updated := s.settings.read .bedTolerance < ((bed - v.bed).natAbs : Int)
            t.verticals = s.verticals.set i (if updated
              then { v with bed := bed, source := .sounded, soundedTime := some s.clock }
              else { v with soundedTime := some s.clock }) ∧
            t.gauging.run.results = es ++ [found (decide updated)] ∧
            t.gauging.run.flags = { run.flags with bedChanged := run.flags.bedChanged || decide updated }) ∧
          (record.quality ≠ .good → t.verticals = s.verticals ∧ t.gauging.run.results = es ++ [found false] ∧
            t.gauging.run.flags = run.flags) ∧
          (depth < s.settings.read .minimumDepth → stowed t) ∧
          (s.settings.read .minimumDepth ≤ depth → v.plan ≠ .surfaceOnly → placed t depth depth)) ∧
        (wet = false → t.verticals = s.verticals ∧ t.gauging.run.results = es ++ [dry] ∧ stowed t) ∧
        (stop = false → wet = true → t.verticals = s.verticals ∧ t.gauging.run.results = run.results ∧
          t.gauging.run.step = some .dwell ∧ t.gauging.dwell =
            some { length := (s.settings.read .dwell).toNat, elapsed := 0, pulses := 0, surface := true })) ∧
    -- the target reached, and no surface found
    ∀ e : QuadratureEdge, e.changed ≠ .both → s.asserted .bottom = false →
      let count := movedCount e s.cable.depthCount
      (wet = true → target ≤ depthOf count → ∃ t, exec (.depthCountChange e) s = .next t ∧
        t.verticals = s.verticals ∧
        (stop = true → t.gauging.run.results =
            es ++ [{ x with noBottom := true, depthUsed := some s.gauging.arrivalDepth }] ∧
          (v.plan ≠ .surfaceOnly → placed t (depthOf count) s.gauging.arrivalDepth)) ∧
        (stop = false → t.gauging.run.results = run.results ∧ t.gauging.run.step = some .dwell ∧ t.gauging.dwell =
          some { length := (s.settings.read .dwell).toNat, elapsed := 0, pulses := 0, surface := true })) ∧
      (wet = false → s.searchCounts ≤ (count - start).toInt → ∃ t, exec (.depthCountChange e) s = .next t ∧
        t.verticals = s.verticals ∧ t.gauging.run.results = es ++ [dry] ∧ stowed t)

/-- R115, R126 to R128: a pulse is counted in a dwell and at no other time; at the end of a dwell the velocity is the
next point of the plan, or the one scaled point of a surface dwell; after the last point the mean is written and the
weight is stowed, and else the weight is raised to the next point. Without a dwell DWELL_EXPIRY does nothing (LOG 4: the
model's choice). -/
def Obligations.DwellMeasuresAVelocity : Prop :=
  ∀ (s : State), s.resetHeld = false →
    (∀ d : Dwell, s.gauging.dwell = some d → exec .meterPulse s =
      .next { s with gauging := { s.gauging with dwell := some { d with pulses := d.pulses + 1 } } }) ∧
    (s.gauging.dwell = none → exec .meterPulse s = .next s ∧ exec .dwellExpiry s = .next s) ∧
    ∀ (d : Dwell) (es : List Entry) (e : Entry) (i : Nat) (v : Vertical),
      s.gauging.dwell = some d → s.gauging.run.results = es ++ [e] →
      s.gauging.run.current = some i → s.verticals[i]? = some v →
      s.cable.state = .holding → s.cable.activity = .idle → s.asserted .top = false →
      let m := s.gauging.meter
      let turns := Int.tdiv d.pulses m.pulsesPerRevolution
      let velocity := if turns < m.minimumRevolutions then 0
        else min 8000 (roundHalfUp (m.offset * d.length + m.slope * turns) d.length)
      let raises := fun (step : Step) (movement : Movement) (entry : Entry) =>
        exec .dwellExpiry s = .next { s with
          gauging := { s.gauging with
            dwell := none, run := { s.gauging.run with step := some step, results := es ++ [entry] } },
          cable := { s.cable with
            state := .raising, activity := .moving movement,
            traverse := { s.cable.traverse with on := false, start := none, jam := 0 },
            hoist := { s.cable.hoist with on := false, start := some .up, jam := 0 } } }
      let finished := fun (mean : Int) =>
        raises .stow .raiseToTop { e with points := e.points ++ [velocity], mean := some mean }
      (d.surface = false → e.points = [] → v.plan = .single → finished velocity) ∧
      (d.surface = false → ∀ deep, e.points = [deep] → v.plan = .twoPoint →
        finished (roundHalfUp (velocity + deep) 2)) ∧
      (d.surface = false → ∀ deep middle, e.points = [deep, middle] → v.plan = .threePoint →
        finished (roundHalfUp (velocity + 2 * middle + deep) 4)) ∧
      (d.surface = false → ∀ tenths used, e.depthUsed = some used →
        (v.plan = .twoPoint ∧ e.points.length = 0 ∧ tenths = 2 ∨
          v.plan = .threePoint ∧ e.points.length = 0 ∧ tenths = 6 ∨
          v.plan = .threePoint ∧ e.points.length = 1 ∧ tenths = 2) →
        roundHalfUp (used * tenths) 10 < s.depth →
        raises .place (.raiseTo (roundHalfUp (used * tenths) 10)) { e with points := e.points ++ [velocity] }) ∧
      (d.surface = true →
        let scaled := roundHalfUp (velocity * s.settings.read .surfaceCoefficient) 1000
        raises .stow .raiseToTop { e with
          points := [scaled], mean := some scaled, surfaceOnly := true,
          depthUsed := some s.gauging.arrivalDepth })

/-- R129, R133: on the return, a raise to a point that ends goes on to Top, and at Top the carriage turns for home. R101,
R129 to R131, R133: Home reached at the end of the return. A run with an end reason becomes Aborted; a run
without one becomes Complete, each measured entry takes its partial discharge, the panel reaching halfway to the
measured entries beside it, and the totals are the measured and the rated discharge, their ratio, and Unsteady. -/
def Obligations.CompletionWorksOutTheDischarge : Prop :=
  (∀ (s : State), s.resetHeld = false → s.gauging.run.state = .returning → s.gauging.run.step = some .returnRaise →
    (∀ level, s.cable.activity = .moving .raiseToTop → level ≠ s.cable.contacts.top →
      level = levelOfSetting (s.settings.read .topLevel) → s.asserted .home = false →
      ∃ t, exec (.contactChange .top level) s = .next t ∧
        t.gauging = { s.gauging with run := { s.gauging.run with step := some .returnHome } } ∧
        t.cable.state = .traversing ∧ t.cable.activity = .moving .goHome ∧ t.cable.traverse.start = some .inward ∧
        t.cable.traverse.on = false ∧ t.cable.hoist.on = false) ∧
    ∀ (e : QuadratureEdge) (target : Int), s.cable.activity = .moving (.raiseTo target) → e.changed ≠ .both →
      s.asserted .top = false →
      max (-30000) (min (roundHalfUp ((movedCount e s.cable.depthCount).toInt * 1000)
        (s.settings.read .hoistCountsPerMetre)) 30000) ≤ target →
      ∃ t, exec (.depthCountChange e) s = .next t ∧ t.gauging = s.gauging ∧ t.cable.state = .raising ∧
        t.cable.activity = .moving .raiseToTop ∧ t.cable.hoist.start = some .up ∧ t.cable.traverse.on = false ∧
        t.cable.hoist.on = false) ∧
  ∀ (level : Level) (s : State), s.resetHeld = false → s.cable.activity = .moving .goHome →
    s.gauging.run.state = .returning → s.gauging.run.step = some .returnHome →
    level ≠ s.cable.contacts.home → level = levelOfSetting (s.settings.read .homeLevel) →
    let run := s.gauging.run
    ∃ t, exec (.contactChange .home level) s = .next t ∧
      t.cable.state = .parked ∧ t.cable.activity = .idle ∧ t.cable.traverseCount = 0 ∧ t.cable.traverse.on = false ∧
      t.cable.hoist.on = false ∧ t.attends .runEnded = true ∧ t.verticals = s.verticals ∧
      (∀ reason, run.endReason = some reason → t.gauging.run = { run with
        state := .aborted, step := none, current := none, triggerMet := none, waitRemaining := none }) ∧
      (run.endReason = none → ∀ a b, run.startStage = some a → run.endStage = some b →
        ∃ filled : List Entry,
          let measured := min 16000000 ((filled.map fun e => e.discharge.getD 0).foldr (· + ·) 0)
          let rated := forwardLookup s (roundHalfUp (a + b) 2)
          t.gauging.run = { run with
            state := .complete, step := none, current := none, triggerMet := none, waitRemaining := none,
            endReason := some .complete, results := filled,
            flags := { run.flags with
              unsteady := decide (s.settings.read .unsteadyLimit < ((b - a).natAbs : Int)) },
            totals := some {
              measured := measured, rated := rated.discharge, flag := rated.flag,
              ratio := match rated.discharge with
                | some q => if q = 0 then none else some (roundHalfUp (measured * 1000) q)
                | none => none,
              proposed := none } } ∧
          filled.length = run.results.length ∧
          ∀ (k : Nat) (e : Entry), run.results[k]? = some e →
            (e.skipped = true → filled[k]? = some e) ∧
            (e.skipped = false →
              (e.mean = none ∨ e.depthUsed = none → filled[k]? = some { e with discharge := none }) ∧
              ∀ v d before after : Int, e.mean = some v → e.depthUsed = some d →
                ((∃ (j : Nat) (x : Entry), j < k ∧ run.results[j]? = some x ∧ x.skipped = false ∧ before = x.distance ∧
                    ∀ (l : Nat) (y : Entry), j < l → l < k → run.results[l]? = some y → y.skipped = true) ∨
                  before = e.distance ∧ ∀ (l : Nat) (y : Entry), l < k → run.results[l]? = some y → y.skipped = true) →
                ((∃ (j : Nat) (x : Entry), k < j ∧ run.results[j]? = some x ∧ x.skipped = false ∧ after = x.distance ∧
                    ∀ (l : Nat) (y : Entry), k < l → l < j → run.results[l]? = some y → y.skipped = true) ∨
                  after = e.distance ∧ ∀ (l : Nat) (y : Entry), k < l → run.results[l]? = some y → y.skipped = true) →
                filled[k]? = some { e with discharge := some (roundHalfUp (v * d * (after - before)) 200000) }))

/-- R106, R111, R134, R165: CableInhibit entering the effect set at a publication. Outward and Down drives go off at
once; a Running run is Returning with Inhibited: in a dwell or a lowering the weight is raised, a traverse turns for
home, a raise goes on to its end; homing leaves the release of Home for the search. That a start that waits is turned
off as a drive that is on is the model's inference (LOG 15), and the step while a raise goes on is its choice (LOG 35). -/
def Obligations.InhibitEndsMovementAndRun : Prop :=
  ∀ (s : State), s.resetHeld = false → s.warning.effects.cableInhibit = [] →
    ∃ t, exec .stageIntervalExpiry s = .next t ∧ (t.warning.effects.cableInhibit ≠ [] →
      let c := s.cable
      let run := s.gauging.run
      let returning := fun (step : Step) => t.gauging.dwell = none ∧ t.gauging.run = { run with
        state := .returning, step := some step, current := none,
        endReason := some (run.endReason.getD .inhibited), endTime := some s.clock,
        endStage := t.stage.record.stage }
      ¬ (t.cable.traverse.on = true ∧ t.cable.traverse.way = .outward) ∧
      ¬ (t.cable.hoist.on = true ∧ t.cable.hoist.way = .down) ∧
      (run.state = .running →
        (s.asserted .top = false →
          (c.activity = .idle ∧ c.state = .holding ∨
            ∃ target stop start wet, c.activity = .moving (.lowerTo target stop start wet)) →
          returning .returnRaise ∧ t.cable.state = .raising ∧ t.cable.activity = .moving .raiseToTop ∧
          t.cable.hoist.start = some .up ∧ t.cable.hoist.on = false ∧ t.cable.traverse.on = false) ∧
        (s.asserted .top = true → s.asserted .home = false → c.recovering = false →
          (∃ target way, c.activity = .moving (.traverseTo target way)) →
          returning .returnHome ∧ t.cable.state = .traversing ∧ t.cable.activity = .moving .goHome ∧
          t.cable.traverse.start = some .inward ∧ t.cable.traverse.on = false ∧ t.cable.hoist.on = false) ∧
        ((c.activity = .moving .raiseToTop ∨ ∃ target, c.activity = .moving (.raiseTo target)) →
          returning .returnRaise ∧ t.cable.state = c.state ∧ t.cable.activity = c.activity)) ∧
      (c.activity = .homing .release → s.asserted .top = true →
        t.cable.activity = .homing .find ∧ t.cable.traverse.start = some .inward ∧ t.cable.traverse.on = false))

/-- R76, R77, R138, R139: ACCEPT GAUGING is refused by the first of its checks that fails; it retargets the band that
covers the mean stage, or places a new one in the lowest-numbered Empty slot, clipped at the stage limits and at the
bands beside it, and the run becomes Accepted. -/
def Obligations.AcceptGaugingPlacesTheShift : Prop :=
  ∀ (force : Bool) (id : BitVec 16) (a b h : Int) (x : Totals) (s : State), s.resetHeld = false →
    s.port.ignoring = false → s.port.slot = none →
    let request := Instr.acceptGauging (beWord (if force then 1 else 0))
    let refused := fun (why : Byte) => exec request s = .next (s.answered .refused 0x3E [why, 0])
    let run := s.gauging.run
    let mean := roundHalfUp (a + b) 2
    let proposal := h - mean
    let limit := s.settings.read .shiftLimit
    let taken := fun (k : Fin 8) (band : Band) (placed : Byte) => exec request s = .next (({ s with
      rating := { s.rating with bands := s.rating.bands.set k.val (some band) k.isLt },
      gauging := { s.gauging with run := { run with
        state := .accepted, totals := some { x with proposed := some proposal } } } } : State).answered .done 0x3E
          (be2 proposal ++ be1 k.val ++ be4 band.lower ++ be4 band.upper ++ [placed]))
    (∀ w : Word, 1 < w.toNat → exec (.acceptGauging (beWord w)) s = .next (s.answered .refused 0x3E [3, 0])) ∧
    (run.state ≠ .complete → refused 4) ∧
    (run.state = .complete → run.id = some id → run.totals = some x → run.startStage = some a →
      run.endStage = some b →
      (run.flags.unsteady = true → force = false → refused 12) ∧
      ((run.flags.unsteady = true → force = true) →
        (s.rating.adoption.request ≠ none → refused 13) ∧
        (s.rating.adoption.request = none → inverseLookup s.rating.active.points x.measured = none → refused 8) ∧
        (s.rating.adoption.request = none → inverseLookup s.rating.active.points x.measured = some h →
          (limit < (proposal.natAbs : Int) → refused 8) ∧
          ((proposal.natAbs : Int) ≤ limit →
            (∀ (k : Fin 8) (old : Band), BandsLaw limit s.rating.bands → s.rating.bands.get k = some old →
              old.lower ≤ mean → mean < old.upper →
              taken k { old with target := proposal, origin := .gauging id, changed := s.clock,
                                 state := .ramping } 0) ∧
            ((∀ k old, s.rating.bands.get k = some old → mean < old.lower ∨ old.upper ≤ mean) →
              ((∀ k, s.rating.bands.get k ≠ none) → refused 6) ∧
              ∀ (k : Fin 8) (lower upper : Int), s.rating.bands.get k = none →
                (∀ j, j < k → s.rating.bands.get j ≠ none) →
                let half := s.settings.read .shiftHalfWidth
                let below := fun (stage : Int) =>
                  stage = max (-2000) (mean - half) ∨ ∃ j old, s.rating.bands.get j = some old ∧
                    old.upper ≤ mean ∧ stage = old.upper
                let above := fun (stage : Int) =>
                  stage = min 30000 (mean + half) ∨ ∃ j old, s.rating.bands.get j = some old ∧
                    mean < old.lower ∧ stage = old.lower
                below lower → (∀ stage, below stage → stage ≤ lower) →
                above upper → (∀ stage, above stage → upper ≤ stage) →
                (20 ≤ upper - lower → taken k
                  { state := .ramping, lower := lower, upper := upper, target := proposal, applied := 0,
                    origin := .gauging id, changed := s.clock } 1) ∧
                (upper - lower < 20 → refused 16))))))

/-! ### Warning rules -/

/-- R140, R142 to R146: DEFINE RULE, refused by the first of its checks that fails, and ARM RULE, DISARM RULE and RETIRE
RULE. -/
def Obligations.RulesAreDefinedArmedAndTakenOut : Prop :=
  ∀ (k : Fin 16) (s : State), s.resetHeld = false → s.port.ignoring = false → s.port.slot = none →
    let slot := BitVec.ofNat 32 k.val
    let put := fun (code : Byte) (r : Rule) =>
      ({ s with warning := { s.warning with rules := s.warning.rules.set k.val (some r) k.isLt } } : State).answered
        .done code (ruleBytes k.val (some r))
    let free := ∀ r, s.warning.rules.get k = some r → r.state = .disarmed
    let fits := fun (q : Quantity) (v : Int) => match q with
      | .stage => -2000 ≤ v ∧ v ≤ 30000
      | .rate => -100000 ≤ v ∧ v ≤ 100000
      | .discharge => 0 ≤ v ∧ v ≤ 16000000
    (∀ slot : Word, slot.toInt < 0 ∨ 15 < slot.toInt →
      (∀ rest : List Word, rest.length = 9 →
        exec (.defineRule (paramBytes (slot :: rest))) s = .next (s.answered .refused 0x40 [3, 0])) ∧
      exec (.armRule (beWord slot)) s = .next (s.answered .refused 0x41 [3, 0]) ∧
      exec (.disarmRule (beWord slot)) s = .next (s.answered .refused 0x42 [3, 0]) ∧
      exec (.retireRule (beWord slot)) s = .next (s.answered .refused 0x44 [3, 0])) ∧
    (∀ quantity trip clear tripPersistence clearPersistence level acknowledge siren flags : Word,
      let request := Instr.defineRule (paramBytes
        [slot, quantity, trip, clear, tripPersistence, clearPersistence, level, acknowledge, siren, flags])
      let refused := fun (why detail : Byte) => exec request s = .next (s.answered .refused 0x40 [why, detail])
      (¬ free → refused 14 0) ∧
      (free → 2 < quantity.toNat → refused 3 1) ∧
      ∀ q : Quantity, free → quantity = BitVec.ofInt 32 q.code →
        (¬ fits q trip.toInt → refused 3 2) ∧
        (fits q trip.toInt → ¬ fits q clear.toInt ∨ trip.toInt < clear.toInt → refused 3 3) ∧
        (fits q trip.toInt → fits q clear.toInt → clear.toInt ≤ trip.toInt →
          let p4 := 1 ≤ tripPersistence.toInt ∧ tripPersistence.toInt ≤ 15
          let p5 := 1 ≤ clearPersistence.toInt ∧ clearPersistence.toInt ≤ 63
          let p6 := 1 ≤ level.toInt ∧ level.toInt ≤ 4
          (¬ p4 → refused 3 4) ∧ (p4 → ¬ p5 → refused 3 5) ∧ (p4 → p5 → ¬ p6 → refused 3 6) ∧
          (p4 → p5 → p6 → 1 < acknowledge.toNat → refused 3 7) ∧
          (p4 → p5 → p6 → acknowledge.toNat ≤ 1 → 3 < siren.toNat → refused 3 8) ∧
          (p4 → p5 → p6 → acknowledge.toNat ≤ 1 → siren.toNat ≤ 3 → 15 < flags.toNat → refused 3 9))) ∧
    (∀ (q : Quantity) (trip clear : Int) (tripPersistence clearPersistence level : Nat) (acknowledge : Bool)
        (siren : Siren) (flags : BitVec 4),
      let request := Instr.defineRule (paramBytes [slot, BitVec.ofInt 32 q.code, BitVec.ofInt 32 trip,
        BitVec.ofInt 32 clear, BitVec.ofNat 32 tripPersistence, BitVec.ofNat 32 clearPersistence,
        BitVec.ofNat 32 level, if acknowledge then 1 else 0, BitVec.ofInt 32 siren.code, flags.setWidth 32])
      free → fits q trip → fits q clear → clear ≤ trip → 1 ≤ tripPersistence → tripPersistence ≤ 15 →
        1 ≤ clearPersistence → clearPersistence ≤ 63 → 1 ≤ level → level ≤ 4 →
        exec request s = .next (put 0x40
          { state := .disarmed, quantity := q, trip := trip, clear := clear, tripPersistence := tripPersistence,
            clearPersistence := clearPersistence, tripCount := 0, clearCount := 0, level := level,
            acknowledgeRequired := acknowledge, siren := siren,
            flags := { floodCadence := flags.getLsbD 0, cableInhibit := flags.getLsbD 1,
                       surfaceOnly := flags.getLsbD 2, remoteLine := flags.getLsbD 3 },
            tripTime := none, peak := none, clearTime := none })) ∧
    (s.warning.rules.get k = none →
      exec (.armRule (beWord slot)) s = .next (s.answered .refused 0x41 [7, 0]) ∧
      exec (.disarmRule (beWord slot)) s = .next (s.answered .refused 0x42 [7, 0]) ∧
      exec (.retireRule (beWord slot)) s = .next (s.answered .refused 0x44 [7, 0])) ∧
    ∀ r, s.warning.rules.get k = some r →
      (r.state = .disarmed →
        exec (.armRule (beWord slot)) s =
          .next (put 0x41 { r with state := .armed, tripCount := 0, clearCount := 0 }) ∧
        exec (.disarmRule (beWord slot)) s = .next (s.answered .refused 0x42 [4, 0])) ∧
      (r.state ≠ .disarmed → exec (.armRule (beWord slot)) s = .next (s.answered .refused 0x41 [4, 0])) ∧
      (r.state ≠ .disarmed →
        let out := { r with state := .disarmed, tripCount := 0, clearCount := 0 }
        ∃ t, exec (.disarmRule (beWord slot)) s = .next t ∧
          t.port.slot = some { status := .done, code := 0x42, body := ruleBytes k.val (some out) } ∧
          t.warning.rules = s.warning.rules.set k.val (some out) k.isLt ∧ EffectsLaw t ∧
          (r.state ≠ .armed → t.attends .ruleCleared = true)) ∧
      ∃ t, exec (.retireRule (beWord slot)) s = .next t ∧
        t.port.slot = some { status := .done, code := 0x44, body := [] } ∧
        t.warning.rules = s.warning.rules.set k.val none k.isLt ∧ EffectsLaw t ∧
        (r.state ≠ .disarmed → r.state ≠ .armed → t.attends .ruleCleared = true)

/-- R152: ACKNOWLEDGE. -/
def Obligations.AcknowledgeActsOnTheState : Prop :=
  ∀ (slot : Word) (s : State), s.resetHeld = false → s.port.ignoring = false → s.port.slot = none →
    (slot.toInt < 0 ∨ 15 < slot.toInt →
      exec (.acknowledge (beWord slot)) s = .next (s.answered .refused 0x43 [3, 0])) ∧
    ∀ k : Fin 16, slot.toInt = k.val →
      ((∀ r, s.warning.rules.get k = some r → r.state = .disarmed ∨ r.state = .armed ∨ r.state = .acknowledged) →
        exec (.acknowledge (beWord slot)) s = .next (s.answered .refused 0x43 [15, 0])) ∧
      ∀ r r', s.warning.rules.get k = some r →
        ((r.state = .tripped ∧ r' = { r with state := .acknowledged }) ∨
          (r.state = .latched ∧ r' = { r with state := .armed, tripCount := 0, clearCount := 0 })) →
        EffectsLaw s →
        ∃ w, exec (.acknowledge (beWord slot)) s =
            .next (({ s with warning := w } : State).answered .done 0x43 (ruleBytes k.val (some r'))) ∧
          w.rules = s.warning.rules.set k.val (some r') k.isLt ∧ EffectsLaw { s with warning := w }

/-- R161: the end of a phase turns the phase of pattern 2 or 3, and does nothing else; with no such pattern it does
nothing (LOG 4: the model's choice). A forming of the effect set that changes the winning pattern starts the new one at
the beginning of its On phase, or stops the generator with the line off; one that leaves the winning pattern leaves the
phase and the time in it. -/
def Obligations.PhaseEndTurnsThePattern : Prop :=
  (∀ (s : State), s.resetHeld = false →
    (s.warning.winning = .p2 ∨ s.warning.winning = .p3 → exec .patternPhaseEnd s =
      .next { s with warning := { s.warning with
        phase := if s.warning.phase = .on then .off else .on, phaseElapsed := 0 } }) ∧
    (s.warning.winning = .none ∨ s.warning.winning = .p1 → exec .patternPhaseEnd s = .next s)) ∧
  ∀ (c : Instr) (s : State),
    (c = .stageIntervalExpiry ∨ (∃ params, c = .acknowledge params) ∨ (∃ params, c = .disarmRule params) ∨
      ∃ params, c = .retireRule params) →
    ∃ t, exec c s = .next t ∧
      (t.warning.winning ≠ s.warning.winning →
        (t.warning.winning = .none → t.warning.phase = .off) ∧
        (t.warning.winning ≠ .none → t.warning.phase = .on ∧ t.warning.phaseElapsed = 0)) ∧
      (t.warning.winning = s.warning.winning →
        t.warning.phase = s.warning.phase ∧ t.warning.phaseElapsed = s.warning.phaseElapsed)

/-- 12.4, R93, R112, R161 to R163, R170, R175, R190: the output lines from the records. While the reset pin is held
every line is at its off level. Else ATTN is low exactly when AnswerReady or a reason of the mask is in the attention
set, a drive that is off has no duty, the direction, siren, beacon and remote lines are those of the records, an
unfitted cableway has both drive outputs off and both directions at their Reset level, and data out, between select
periods, is at high impedance. -/
def Obligations.OutputLinesFollowTheRecords : Prop :=
  ∀ (s : State),
    (s.resetHeld = true → s.lines =
      { sdo := none, attn := .high, traverseDuty := none, hoistDuty := none, traverseDir := .low, hoistDir := .low,
        siren := .low, beacon := .low, remote := .low }) ∧
    (s.resetHeld = false →
      s.lines.sdo = none ∧
      (s.lines.attn = .low ↔ s.attends .answerReady = true ∨ s.port.attention &&& s.port.mask ≠ 0) ∧
      (s.lines.attn = .low ↔ ∃ r : Reason, s.attends r = true ∧ (r = .answerReady ∨ holdsReason s.port.mask r = true)) ∧
      s.lines.traverseDuty = (if s.cable.traverse.on = true then some s.cable.traverse.duty else none) ∧
      s.lines.hoistDuty = (if s.cable.hoist.on = true then some s.cable.hoist.duty else none) ∧
      (s.lines.traverseDir = .high ↔ s.cable.traverse.way = .outward) ∧
      (s.lines.hoistDir = .high ↔ s.cable.hoist.way = .down) ∧
      (s.port.cablewayFitted = .low → StrapLaw s →
        s.lines.traverseDuty = none ∧ s.lines.hoistDuty = none ∧ s.lines.traverseDir = .low ∧
        s.lines.hoistDir = .low) ∧
      (s.lines.siren = .high ↔ s.warning.winning ≠ .none ∧ s.warning.phase = .on) ∧
      (s.lines.beacon = .high ↔ s.warning.beacon = true) ∧ (s.lines.remote = .high ↔ s.warning.remote = true) ∧
      (EffectsLaw s →
        (s.lines.beacon = .high ↔ ∃ k r, s.warning.rules.get k = some r ∧
          (r.state = .tripped ∨ r.state = .acknowledged ∨ r.state = .latched)) ∧
        (s.lines.remote = .high ↔ ∃ k r, s.warning.rules.get k = some r ∧
          (r.state = .tripped ∨ r.state = .acknowledged) ∧ r.flags.remoteLine = true)))
end

