-- ==== Sys2Proof/Laws/State.lean ====
section
/-! SUPPORT. What each update of State leaves and what it sets: one lemma per field per update. -/

namespace Sys2Proof.Machine

/-! ### setPort -/

@[simp] theorem setPort_port (s : State) (x : Port) : (s.setPort x).port = x := rfl
@[simp] theorem setPort_clock (s : State) (x : Port) : (s.setPort x).clock = s.clock := rfl
@[simp] theorem setPort_settings (s : State) (x : Port) : (s.setPort x).settings = s.settings := rfl
@[simp] theorem setPort_channels (s : State) (x : Port) : (s.setPort x).channels = s.channels := rfl
@[simp] theorem setPort_stage (s : State) (x : Port) : (s.setPort x).stage = s.stage := rfl
@[simp] theorem setPort_rating (s : State) (x : Port) : (s.setPort x).rating = s.rating := rfl
@[simp] theorem setPort_verticals (s : State) (x : Port) : (s.setPort x).verticals = s.verticals := rfl
@[simp] theorem setPort_cable (s : State) (x : Port) : (s.setPort x).cable = s.cable := rfl
@[simp] theorem setPort_gauging (s : State) (x : Port) : (s.setPort x).gauging = s.gauging := rfl
@[simp] theorem setPort_warning (s : State) (x : Port) : (s.setPort x).warning = s.warning := rfl
@[simp] theorem setPort_freeReads (s : State) (x : Port) : (s.setPort x).freeReads = s.freeReads := rfl
@[simp] theorem setPort_resetHeld (s : State) (x : Port) : (s.setPort x).resetHeld = s.resetHeld := rfl
@[simp] theorem setPort_pending (s : State) (x : Port) : (s.setPort x).pending = s.pending := rfl

/-! ### setClock -/

@[simp] theorem setClock_port (s : State) (x : Word) : (s.setClock x).port = s.port := rfl
@[simp] theorem setClock_clock (s : State) (x : Word) : (s.setClock x).clock = x := rfl
@[simp] theorem setClock_settings (s : State) (x : Word) : (s.setClock x).settings = s.settings := rfl
@[simp] theorem setClock_channels (s : State) (x : Word) : (s.setClock x).channels = s.channels := rfl
@[simp] theorem setClock_stage (s : State) (x : Word) : (s.setClock x).stage = s.stage := rfl
@[simp] theorem setClock_rating (s : State) (x : Word) : (s.setClock x).rating = s.rating := rfl
@[simp] theorem setClock_verticals (s : State) (x : Word) : (s.setClock x).verticals = s.verticals := rfl
@[simp] theorem setClock_cable (s : State) (x : Word) : (s.setClock x).cable = s.cable := rfl
@[simp] theorem setClock_gauging (s : State) (x : Word) : (s.setClock x).gauging = s.gauging := rfl
@[simp] theorem setClock_warning (s : State) (x : Word) : (s.setClock x).warning = s.warning := rfl
@[simp] theorem setClock_freeReads (s : State) (x : Word) : (s.setClock x).freeReads = s.freeReads := rfl
@[simp] theorem setClock_resetHeld (s : State) (x : Word) : (s.setClock x).resetHeld = s.resetHeld := rfl
@[simp] theorem setClock_pending (s : State) (x : Word) : (s.setClock x).pending = s.pending := rfl

/-! ### setSettings -/

@[simp] theorem setSettings_port (s : State) (x : Settings) : (s.setSettings x).port = s.port := rfl
@[simp] theorem setSettings_clock (s : State) (x : Settings) : (s.setSettings x).clock = s.clock := rfl
@[simp] theorem setSettings_settings (s : State) (x : Settings) : (s.setSettings x).settings = x := rfl
@[simp] theorem setSettings_channels (s : State) (x : Settings) : (s.setSettings x).channels = s.channels := rfl
@[simp] theorem setSettings_stage (s : State) (x : Settings) : (s.setSettings x).stage = s.stage := rfl
@[simp] theorem setSettings_rating (s : State) (x : Settings) : (s.setSettings x).rating = s.rating := rfl
@[simp] theorem setSettings_verticals (s : State) (x : Settings) : (s.setSettings x).verticals = s.verticals := rfl
@[simp] theorem setSettings_cable (s : State) (x : Settings) : (s.setSettings x).cable = s.cable := rfl
@[simp] theorem setSettings_gauging (s : State) (x : Settings) : (s.setSettings x).gauging = s.gauging := rfl
@[simp] theorem setSettings_warning (s : State) (x : Settings) : (s.setSettings x).warning = s.warning := rfl
@[simp] theorem setSettings_freeReads (s : State) (x : Settings) : (s.setSettings x).freeReads = s.freeReads := rfl
@[simp] theorem setSettings_resetHeld (s : State) (x : Settings) : (s.setSettings x).resetHeld = s.resetHeld := rfl
@[simp] theorem setSettings_pending (s : State) (x : Settings) : (s.setSettings x).pending = s.pending := rfl

/-! ### setChannels -/

@[simp] theorem setChannels_port (s : State) (x : Vector Channel Config.channels) : (s.setChannels x).port = s.port := rfl
@[simp] theorem setChannels_clock (s : State) (x : Vector Channel Config.channels) : (s.setChannels x).clock = s.clock := rfl
@[simp] theorem setChannels_settings (s : State) (x : Vector Channel Config.channels) : (s.setChannels x).settings = s.settings := rfl
@[simp] theorem setChannels_channels (s : State) (x : Vector Channel Config.channels) : (s.setChannels x).channels = x := rfl
@[simp] theorem setChannels_stage (s : State) (x : Vector Channel Config.channels) : (s.setChannels x).stage = s.stage := rfl
@[simp] theorem setChannels_rating (s : State) (x : Vector Channel Config.channels) : (s.setChannels x).rating = s.rating := rfl
@[simp] theorem setChannels_verticals (s : State) (x : Vector Channel Config.channels) : (s.setChannels x).verticals = s.verticals := rfl
@[simp] theorem setChannels_cable (s : State) (x : Vector Channel Config.channels) : (s.setChannels x).cable = s.cable := rfl
@[simp] theorem setChannels_gauging (s : State) (x : Vector Channel Config.channels) : (s.setChannels x).gauging = s.gauging := rfl
@[simp] theorem setChannels_warning (s : State) (x : Vector Channel Config.channels) : (s.setChannels x).warning = s.warning := rfl
@[simp] theorem setChannels_freeReads (s : State) (x : Vector Channel Config.channels) : (s.setChannels x).freeReads = s.freeReads := rfl
@[simp] theorem setChannels_resetHeld (s : State) (x : Vector Channel Config.channels) : (s.setChannels x).resetHeld = s.resetHeld := rfl
@[simp] theorem setChannels_pending (s : State) (x : Vector Channel Config.channels) : (s.setChannels x).pending = s.pending := rfl

/-! ### setStage -/

@[simp] theorem setStage_port (s : State) (x : StageBlock) : (s.setStage x).port = s.port := rfl
@[simp] theorem setStage_clock (s : State) (x : StageBlock) : (s.setStage x).clock = s.clock := rfl
@[simp] theorem setStage_settings (s : State) (x : StageBlock) : (s.setStage x).settings = s.settings := rfl
@[simp] theorem setStage_channels (s : State) (x : StageBlock) : (s.setStage x).channels = s.channels := rfl
@[simp] theorem setStage_stage (s : State) (x : StageBlock) : (s.setStage x).stage = x := rfl
@[simp] theorem setStage_rating (s : State) (x : StageBlock) : (s.setStage x).rating = s.rating := rfl
@[simp] theorem setStage_verticals (s : State) (x : StageBlock) : (s.setStage x).verticals = s.verticals := rfl
@[simp] theorem setStage_cable (s : State) (x : StageBlock) : (s.setStage x).cable = s.cable := rfl
@[simp] theorem setStage_gauging (s : State) (x : StageBlock) : (s.setStage x).gauging = s.gauging := rfl
@[simp] theorem setStage_warning (s : State) (x : StageBlock) : (s.setStage x).warning = s.warning := rfl
@[simp] theorem setStage_freeReads (s : State) (x : StageBlock) : (s.setStage x).freeReads = s.freeReads := rfl
@[simp] theorem setStage_resetHeld (s : State) (x : StageBlock) : (s.setStage x).resetHeld = s.resetHeld := rfl
@[simp] theorem setStage_pending (s : State) (x : StageBlock) : (s.setStage x).pending = s.pending := rfl

/-! ### setRating -/

@[simp] theorem setRating_port (s : State) (x : RatingStore) : (s.setRating x).port = s.port := rfl
@[simp] theorem setRating_clock (s : State) (x : RatingStore) : (s.setRating x).clock = s.clock := rfl
@[simp] theorem setRating_settings (s : State) (x : RatingStore) : (s.setRating x).settings = s.settings := rfl
@[simp] theorem setRating_channels (s : State) (x : RatingStore) : (s.setRating x).channels = s.channels := rfl
@[simp] theorem setRating_stage (s : State) (x : RatingStore) : (s.setRating x).stage = s.stage := rfl
@[simp] theorem setRating_rating (s : State) (x : RatingStore) : (s.setRating x).rating = x := rfl
@[simp] theorem setRating_verticals (s : State) (x : RatingStore) : (s.setRating x).verticals = s.verticals := rfl
@[simp] theorem setRating_cable (s : State) (x : RatingStore) : (s.setRating x).cable = s.cable := rfl
@[simp] theorem setRating_gauging (s : State) (x : RatingStore) : (s.setRating x).gauging = s.gauging := rfl
@[simp] theorem setRating_warning (s : State) (x : RatingStore) : (s.setRating x).warning = s.warning := rfl
@[simp] theorem setRating_freeReads (s : State) (x : RatingStore) : (s.setRating x).freeReads = s.freeReads := rfl
@[simp] theorem setRating_resetHeld (s : State) (x : RatingStore) : (s.setRating x).resetHeld = s.resetHeld := rfl
@[simp] theorem setRating_pending (s : State) (x : RatingStore) : (s.setRating x).pending = s.pending := rfl

/-! ### setVerticals -/

@[simp] theorem setVerticals_port (s : State) (x : List Vertical) : (s.setVerticals x).port = s.port := rfl
@[simp] theorem setVerticals_clock (s : State) (x : List Vertical) : (s.setVerticals x).clock = s.clock := rfl
@[simp] theorem setVerticals_settings (s : State) (x : List Vertical) : (s.setVerticals x).settings = s.settings := rfl
@[simp] theorem setVerticals_channels (s : State) (x : List Vertical) : (s.setVerticals x).channels = s.channels := rfl
@[simp] theorem setVerticals_stage (s : State) (x : List Vertical) : (s.setVerticals x).stage = s.stage := rfl
@[simp] theorem setVerticals_rating (s : State) (x : List Vertical) : (s.setVerticals x).rating = s.rating := rfl
@[simp] theorem setVerticals_verticals (s : State) (x : List Vertical) : (s.setVerticals x).verticals = x := rfl
@[simp] theorem setVerticals_cable (s : State) (x : List Vertical) : (s.setVerticals x).cable = s.cable := rfl
@[simp] theorem setVerticals_gauging (s : State) (x : List Vertical) : (s.setVerticals x).gauging = s.gauging := rfl
@[simp] theorem setVerticals_warning (s : State) (x : List Vertical) : (s.setVerticals x).warning = s.warning := rfl
@[simp] theorem setVerticals_freeReads (s : State) (x : List Vertical) : (s.setVerticals x).freeReads = s.freeReads := rfl
@[simp] theorem setVerticals_resetHeld (s : State) (x : List Vertical) : (s.setVerticals x).resetHeld = s.resetHeld := rfl
@[simp] theorem setVerticals_pending (s : State) (x : List Vertical) : (s.setVerticals x).pending = s.pending := rfl

/-! ### setCable -/

@[simp] theorem setCable_port (s : State) (x : Cableway) : (s.setCable x).port = s.port := rfl
@[simp] theorem setCable_clock (s : State) (x : Cableway) : (s.setCable x).clock = s.clock := rfl
@[simp] theorem setCable_settings (s : State) (x : Cableway) : (s.setCable x).settings = s.settings := rfl
@[simp] theorem setCable_channels (s : State) (x : Cableway) : (s.setCable x).channels = s.channels := rfl
@[simp] theorem setCable_stage (s : State) (x : Cableway) : (s.setCable x).stage = s.stage := rfl
@[simp] theorem setCable_rating (s : State) (x : Cableway) : (s.setCable x).rating = s.rating := rfl
@[simp] theorem setCable_verticals (s : State) (x : Cableway) : (s.setCable x).verticals = s.verticals := rfl
@[simp] theorem setCable_cable (s : State) (x : Cableway) : (s.setCable x).cable = x := rfl
@[simp] theorem setCable_gauging (s : State) (x : Cableway) : (s.setCable x).gauging = s.gauging := rfl
@[simp] theorem setCable_warning (s : State) (x : Cableway) : (s.setCable x).warning = s.warning := rfl
@[simp] theorem setCable_freeReads (s : State) (x : Cableway) : (s.setCable x).freeReads = s.freeReads := rfl
@[simp] theorem setCable_resetHeld (s : State) (x : Cableway) : (s.setCable x).resetHeld = s.resetHeld := rfl
@[simp] theorem setCable_pending (s : State) (x : Cableway) : (s.setCable x).pending = s.pending := rfl

/-! ### setGauging -/

@[simp] theorem setGauging_port (s : State) (x : GaugingUnit) : (s.setGauging x).port = s.port := rfl
@[simp] theorem setGauging_clock (s : State) (x : GaugingUnit) : (s.setGauging x).clock = s.clock := rfl
@[simp] theorem setGauging_settings (s : State) (x : GaugingUnit) : (s.setGauging x).settings = s.settings := rfl
@[simp] theorem setGauging_channels (s : State) (x : GaugingUnit) : (s.setGauging x).channels = s.channels := rfl
@[simp] theorem setGauging_stage (s : State) (x : GaugingUnit) : (s.setGauging x).stage = s.stage := rfl
@[simp] theorem setGauging_rating (s : State) (x : GaugingUnit) : (s.setGauging x).rating = s.rating := rfl
@[simp] theorem setGauging_verticals (s : State) (x : GaugingUnit) : (s.setGauging x).verticals = s.verticals := rfl
@[simp] theorem setGauging_cable (s : State) (x : GaugingUnit) : (s.setGauging x).cable = s.cable := rfl
@[simp] theorem setGauging_gauging (s : State) (x : GaugingUnit) : (s.setGauging x).gauging = x := rfl
@[simp] theorem setGauging_warning (s : State) (x : GaugingUnit) : (s.setGauging x).warning = s.warning := rfl
@[simp] theorem setGauging_freeReads (s : State) (x : GaugingUnit) : (s.setGauging x).freeReads = s.freeReads := rfl
@[simp] theorem setGauging_resetHeld (s : State) (x : GaugingUnit) : (s.setGauging x).resetHeld = s.resetHeld := rfl
@[simp] theorem setGauging_pending (s : State) (x : GaugingUnit) : (s.setGauging x).pending = s.pending := rfl

/-! ### setWarning -/

@[simp] theorem setWarning_port (s : State) (x : WarningUnit) : (s.setWarning x).port = s.port := rfl
@[simp] theorem setWarning_clock (s : State) (x : WarningUnit) : (s.setWarning x).clock = s.clock := rfl
@[simp] theorem setWarning_settings (s : State) (x : WarningUnit) : (s.setWarning x).settings = s.settings := rfl
@[simp] theorem setWarning_channels (s : State) (x : WarningUnit) : (s.setWarning x).channels = s.channels := rfl
@[simp] theorem setWarning_stage (s : State) (x : WarningUnit) : (s.setWarning x).stage = s.stage := rfl
@[simp] theorem setWarning_rating (s : State) (x : WarningUnit) : (s.setWarning x).rating = s.rating := rfl
@[simp] theorem setWarning_verticals (s : State) (x : WarningUnit) : (s.setWarning x).verticals = s.verticals := rfl
@[simp] theorem setWarning_cable (s : State) (x : WarningUnit) : (s.setWarning x).cable = s.cable := rfl
@[simp] theorem setWarning_gauging (s : State) (x : WarningUnit) : (s.setWarning x).gauging = s.gauging := rfl
@[simp] theorem setWarning_warning (s : State) (x : WarningUnit) : (s.setWarning x).warning = x := rfl
@[simp] theorem setWarning_freeReads (s : State) (x : WarningUnit) : (s.setWarning x).freeReads = s.freeReads := rfl
@[simp] theorem setWarning_resetHeld (s : State) (x : WarningUnit) : (s.setWarning x).resetHeld = s.resetHeld := rfl
@[simp] theorem setWarning_pending (s : State) (x : WarningUnit) : (s.setWarning x).pending = s.pending := rfl

/-! ### setFreeReads -/

@[simp] theorem setFreeReads_port (s : State) (x : Nat) : (s.setFreeReads x).port = s.port := rfl
@[simp] theorem setFreeReads_clock (s : State) (x : Nat) : (s.setFreeReads x).clock = s.clock := rfl
@[simp] theorem setFreeReads_settings (s : State) (x : Nat) : (s.setFreeReads x).settings = s.settings := rfl
@[simp] theorem setFreeReads_channels (s : State) (x : Nat) : (s.setFreeReads x).channels = s.channels := rfl
@[simp] theorem setFreeReads_stage (s : State) (x : Nat) : (s.setFreeReads x).stage = s.stage := rfl
@[simp] theorem setFreeReads_rating (s : State) (x : Nat) : (s.setFreeReads x).rating = s.rating := rfl
@[simp] theorem setFreeReads_verticals (s : State) (x : Nat) : (s.setFreeReads x).verticals = s.verticals := rfl
@[simp] theorem setFreeReads_cable (s : State) (x : Nat) : (s.setFreeReads x).cable = s.cable := rfl
@[simp] theorem setFreeReads_gauging (s : State) (x : Nat) : (s.setFreeReads x).gauging = s.gauging := rfl
@[simp] theorem setFreeReads_warning (s : State) (x : Nat) : (s.setFreeReads x).warning = s.warning := rfl
@[simp] theorem setFreeReads_freeReads (s : State) (x : Nat) : (s.setFreeReads x).freeReads = x := rfl
@[simp] theorem setFreeReads_resetHeld (s : State) (x : Nat) : (s.setFreeReads x).resetHeld = s.resetHeld := rfl
@[simp] theorem setFreeReads_pending (s : State) (x : Nat) : (s.setFreeReads x).pending = s.pending := rfl

/-! ### setPending -/

@[simp] theorem setPending_port (s : State) (x : List Instr) : (s.setPending x).port = s.port := rfl
@[simp] theorem setPending_clock (s : State) (x : List Instr) : (s.setPending x).clock = s.clock := rfl
@[simp] theorem setPending_settings (s : State) (x : List Instr) : (s.setPending x).settings = s.settings := rfl
@[simp] theorem setPending_channels (s : State) (x : List Instr) : (s.setPending x).channels = s.channels := rfl
@[simp] theorem setPending_stage (s : State) (x : List Instr) : (s.setPending x).stage = s.stage := rfl
@[simp] theorem setPending_rating (s : State) (x : List Instr) : (s.setPending x).rating = s.rating := rfl
@[simp] theorem setPending_verticals (s : State) (x : List Instr) : (s.setPending x).verticals = s.verticals := rfl
@[simp] theorem setPending_cable (s : State) (x : List Instr) : (s.setPending x).cable = s.cable := rfl
@[simp] theorem setPending_gauging (s : State) (x : List Instr) : (s.setPending x).gauging = s.gauging := rfl
@[simp] theorem setPending_warning (s : State) (x : List Instr) : (s.setPending x).warning = s.warning := rfl
@[simp] theorem setPending_freeReads (s : State) (x : List Instr) : (s.setPending x).freeReads = s.freeReads := rfl
@[simp] theorem setPending_resetHeld (s : State) (x : List Instr) : (s.setPending x).resetHeld = s.resetHeld := rfl
@[simp] theorem setPending_pending (s : State) (x : List Instr) : (s.setPending x).pending = x := rfl

/-! ### Updates inside a part -/

@[simp] theorem raise_port_unitAddress (s : State) (r : Reason) : (s.raise r).port.unitAddress = s.port.unitAddress := rfl
@[simp] theorem raise_port_cablewayFitted (s : State) (r : Reason) : (s.raise r).port.cablewayFitted = s.port.cablewayFitted := rfl
@[simp] theorem raise_port_slot (s : State) (r : Reason) : (s.raise r).port.slot = s.port.slot := rfl
@[simp] theorem raise_port_mask (s : State) (r : Reason) : (s.raise r).port.mask = s.port.mask := rfl
@[simp] theorem raise_port_cursor (s : State) (r : Reason) : (s.raise r).port.cursor = s.port.cursor := rfl
@[simp] theorem raise_port_sdo (s : State) (r : Reason) : (s.raise r).port.sdo = s.port.sdo := rfl
@[simp] theorem raise_port_ignoring (s : State) (r : Reason) : (s.raise r).port.ignoring = s.port.ignoring := rfl
@[simp] theorem raise_port_attention (s : State) (r : Reason) : (s.raise r).port.attention = addReason s.port.attention r := rfl
@[simp] theorem raise_clock (s : State) (r : Reason) : (s.raise r).clock = s.clock := rfl
@[simp] theorem raise_settings (s : State) (r : Reason) : (s.raise r).settings = s.settings := rfl
@[simp] theorem raise_channels (s : State) (r : Reason) : (s.raise r).channels = s.channels := rfl
@[simp] theorem raise_stage (s : State) (r : Reason) : (s.raise r).stage = s.stage := rfl
@[simp] theorem raise_rating (s : State) (r : Reason) : (s.raise r).rating = s.rating := rfl
@[simp] theorem raise_verticals (s : State) (r : Reason) : (s.raise r).verticals = s.verticals := rfl
@[simp] theorem raise_cable (s : State) (r : Reason) : (s.raise r).cable = s.cable := rfl
@[simp] theorem raise_gauging (s : State) (r : Reason) : (s.raise r).gauging = s.gauging := rfl
@[simp] theorem raise_warning (s : State) (r : Reason) : (s.raise r).warning = s.warning := rfl
@[simp] theorem raise_freeReads (s : State) (r : Reason) : (s.raise r).freeReads = s.freeReads := rfl
@[simp] theorem raise_resetHeld (s : State) (r : Reason) : (s.raise r).resetHeld = s.resetHeld := rfl
@[simp] theorem raise_pending (s : State) (r : Reason) : (s.raise r).pending = s.pending := rfl

@[simp] theorem dropReason_port_unitAddress (s : State) (r : Reason) : (s.dropReason r).port.unitAddress = s.port.unitAddress := rfl
@[simp] theorem dropReason_port_cablewayFitted (s : State) (r : Reason) : (s.dropReason r).port.cablewayFitted = s.port.cablewayFitted := rfl
@[simp] theorem dropReason_port_slot (s : State) (r : Reason) : (s.dropReason r).port.slot = s.port.slot := rfl
@[simp] theorem dropReason_port_mask (s : State) (r : Reason) : (s.dropReason r).port.mask = s.port.mask := rfl
@[simp] theorem dropReason_port_cursor (s : State) (r : Reason) : (s.dropReason r).port.cursor = s.port.cursor := rfl
@[simp] theorem dropReason_port_sdo (s : State) (r : Reason) : (s.dropReason r).port.sdo = s.port.sdo := rfl
@[simp] theorem dropReason_port_ignoring (s : State) (r : Reason) : (s.dropReason r).port.ignoring = s.port.ignoring := rfl
@[simp] theorem dropReason_port_attention (s : State) (r : Reason) : (s.dropReason r).port.attention = removeReason s.port.attention r := rfl
@[simp] theorem dropReason_clock (s : State) (r : Reason) : (s.dropReason r).clock = s.clock := rfl
@[simp] theorem dropReason_settings (s : State) (r : Reason) : (s.dropReason r).settings = s.settings := rfl
@[simp] theorem dropReason_channels (s : State) (r : Reason) : (s.dropReason r).channels = s.channels := rfl
@[simp] theorem dropReason_stage (s : State) (r : Reason) : (s.dropReason r).stage = s.stage := rfl
@[simp] theorem dropReason_rating (s : State) (r : Reason) : (s.dropReason r).rating = s.rating := rfl
@[simp] theorem dropReason_verticals (s : State) (r : Reason) : (s.dropReason r).verticals = s.verticals := rfl
@[simp] theorem dropReason_cable (s : State) (r : Reason) : (s.dropReason r).cable = s.cable := rfl
@[simp] theorem dropReason_gauging (s : State) (r : Reason) : (s.dropReason r).gauging = s.gauging := rfl
@[simp] theorem dropReason_warning (s : State) (r : Reason) : (s.dropReason r).warning = s.warning := rfl
@[simp] theorem dropReason_freeReads (s : State) (r : Reason) : (s.dropReason r).freeReads = s.freeReads := rfl
@[simp] theorem dropReason_resetHeld (s : State) (r : Reason) : (s.dropReason r).resetHeld = s.resetHeld := rfl
@[simp] theorem dropReason_pending (s : State) (r : Reason) : (s.dropReason r).pending = s.pending := rfl

@[simp] theorem setAttention_port_unitAddress (s : State) (x : BitVec 12) : (s.setAttention x).port.unitAddress = s.port.unitAddress := rfl
@[simp] theorem setAttention_port_cablewayFitted (s : State) (x : BitVec 12) : (s.setAttention x).port.cablewayFitted = s.port.cablewayFitted := rfl
@[simp] theorem setAttention_port_slot (s : State) (x : BitVec 12) : (s.setAttention x).port.slot = s.port.slot := rfl
@[simp] theorem setAttention_port_mask (s : State) (x : BitVec 12) : (s.setAttention x).port.mask = s.port.mask := rfl
@[simp] theorem setAttention_port_cursor (s : State) (x : BitVec 12) : (s.setAttention x).port.cursor = s.port.cursor := rfl
@[simp] theorem setAttention_port_sdo (s : State) (x : BitVec 12) : (s.setAttention x).port.sdo = s.port.sdo := rfl
@[simp] theorem setAttention_port_ignoring (s : State) (x : BitVec 12) : (s.setAttention x).port.ignoring = s.port.ignoring := rfl
@[simp] theorem setAttention_port_attention (s : State) (x : BitVec 12) : (s.setAttention x).port.attention = x := rfl
@[simp] theorem setAttention_clock (s : State) (x : BitVec 12) : (s.setAttention x).clock = s.clock := rfl
@[simp] theorem setAttention_settings (s : State) (x : BitVec 12) : (s.setAttention x).settings = s.settings := rfl
@[simp] theorem setAttention_channels (s : State) (x : BitVec 12) : (s.setAttention x).channels = s.channels := rfl
@[simp] theorem setAttention_stage (s : State) (x : BitVec 12) : (s.setAttention x).stage = s.stage := rfl
@[simp] theorem setAttention_rating (s : State) (x : BitVec 12) : (s.setAttention x).rating = s.rating := rfl
@[simp] theorem setAttention_verticals (s : State) (x : BitVec 12) : (s.setAttention x).verticals = s.verticals := rfl
@[simp] theorem setAttention_cable (s : State) (x : BitVec 12) : (s.setAttention x).cable = s.cable := rfl
@[simp] theorem setAttention_gauging (s : State) (x : BitVec 12) : (s.setAttention x).gauging = s.gauging := rfl
@[simp] theorem setAttention_warning (s : State) (x : BitVec 12) : (s.setAttention x).warning = s.warning := rfl
@[simp] theorem setAttention_freeReads (s : State) (x : BitVec 12) : (s.setAttention x).freeReads = s.freeReads := rfl
@[simp] theorem setAttention_resetHeld (s : State) (x : BitVec 12) : (s.setAttention x).resetHeld = s.resetHeld := rfl
@[simp] theorem setAttention_pending (s : State) (x : BitVec 12) : (s.setAttention x).pending = s.pending := rfl

@[simp] theorem setCursor_port_unitAddress (s : State) (c : Cursor) : (s.setCursor c).port.unitAddress = s.port.unitAddress := rfl
@[simp] theorem setCursor_port_cablewayFitted (s : State) (c : Cursor) : (s.setCursor c).port.cablewayFitted = s.port.cablewayFitted := rfl
@[simp] theorem setCursor_port_slot (s : State) (c : Cursor) : (s.setCursor c).port.slot = s.port.slot := rfl
@[simp] theorem setCursor_port_attention (s : State) (c : Cursor) : (s.setCursor c).port.attention = s.port.attention := rfl
@[simp] theorem setCursor_port_mask (s : State) (c : Cursor) : (s.setCursor c).port.mask = s.port.mask := rfl
@[simp] theorem setCursor_port_sdo (s : State) (c : Cursor) : (s.setCursor c).port.sdo = s.port.sdo := rfl
@[simp] theorem setCursor_port_ignoring (s : State) (c : Cursor) : (s.setCursor c).port.ignoring = s.port.ignoring := rfl
@[simp] theorem setCursor_port_cursor (s : State) (c : Cursor) : (s.setCursor c).port.cursor = c := rfl
@[simp] theorem setCursor_clock (s : State) (c : Cursor) : (s.setCursor c).clock = s.clock := rfl
@[simp] theorem setCursor_settings (s : State) (c : Cursor) : (s.setCursor c).settings = s.settings := rfl
@[simp] theorem setCursor_channels (s : State) (c : Cursor) : (s.setCursor c).channels = s.channels := rfl
@[simp] theorem setCursor_stage (s : State) (c : Cursor) : (s.setCursor c).stage = s.stage := rfl
@[simp] theorem setCursor_rating (s : State) (c : Cursor) : (s.setCursor c).rating = s.rating := rfl
@[simp] theorem setCursor_verticals (s : State) (c : Cursor) : (s.setCursor c).verticals = s.verticals := rfl
@[simp] theorem setCursor_cable (s : State) (c : Cursor) : (s.setCursor c).cable = s.cable := rfl
@[simp] theorem setCursor_gauging (s : State) (c : Cursor) : (s.setCursor c).gauging = s.gauging := rfl
@[simp] theorem setCursor_warning (s : State) (c : Cursor) : (s.setCursor c).warning = s.warning := rfl
@[simp] theorem setCursor_freeReads (s : State) (c : Cursor) : (s.setCursor c).freeReads = s.freeReads := rfl
@[simp] theorem setCursor_resetHeld (s : State) (c : Cursor) : (s.setCursor c).resetHeld = s.resetHeld := rfl
@[simp] theorem setCursor_pending (s : State) (c : Cursor) : (s.setCursor c).pending = s.pending := rfl

@[simp] theorem fillSlot_port_unitAddress (s : State) (a : Answer) : (s.fillSlot a).port.unitAddress = s.port.unitAddress := rfl
@[simp] theorem fillSlot_port_cablewayFitted (s : State) (a : Answer) : (s.fillSlot a).port.cablewayFitted = s.port.cablewayFitted := rfl
@[simp] theorem fillSlot_port_mask (s : State) (a : Answer) : (s.fillSlot a).port.mask = s.port.mask := rfl
@[simp] theorem fillSlot_port_cursor (s : State) (a : Answer) : (s.fillSlot a).port.cursor = s.port.cursor := rfl
@[simp] theorem fillSlot_port_sdo (s : State) (a : Answer) : (s.fillSlot a).port.sdo = .highImpedance := rfl
@[simp] theorem fillSlot_port_ignoring (s : State) (a : Answer) : (s.fillSlot a).port.ignoring = s.port.ignoring := rfl
@[simp] theorem fillSlot_port_slot (s : State) (a : Answer) : (s.fillSlot a).port.slot = some a := rfl
@[simp] theorem fillSlot_port_attention (s : State) (a : Answer) : (s.fillSlot a).port.attention = addReason s.port.attention .answerReady := rfl
@[simp] theorem fillSlot_clock (s : State) (a : Answer) : (s.fillSlot a).clock = s.clock := rfl
@[simp] theorem fillSlot_settings (s : State) (a : Answer) : (s.fillSlot a).settings = s.settings := rfl
@[simp] theorem fillSlot_channels (s : State) (a : Answer) : (s.fillSlot a).channels = s.channels := rfl
@[simp] theorem fillSlot_stage (s : State) (a : Answer) : (s.fillSlot a).stage = s.stage := rfl
@[simp] theorem fillSlot_rating (s : State) (a : Answer) : (s.fillSlot a).rating = s.rating := rfl
@[simp] theorem fillSlot_verticals (s : State) (a : Answer) : (s.fillSlot a).verticals = s.verticals := rfl
@[simp] theorem fillSlot_cable (s : State) (a : Answer) : (s.fillSlot a).cable = s.cable := rfl
@[simp] theorem fillSlot_gauging (s : State) (a : Answer) : (s.fillSlot a).gauging = s.gauging := rfl
@[simp] theorem fillSlot_warning (s : State) (a : Answer) : (s.fillSlot a).warning = s.warning := rfl
@[simp] theorem fillSlot_freeReads (s : State) (a : Answer) : (s.fillSlot a).freeReads = s.freeReads := rfl
@[simp] theorem fillSlot_resetHeld (s : State) (a : Answer) : (s.fillSlot a).resetHeld = s.resetHeld := rfl
@[simp] theorem fillSlot_pending (s : State) (a : Answer) : (s.fillSlot a).pending = s.pending := rfl

@[simp] theorem setRun_port (s : State) (r : RunRecord) : (s.setRun r).port = s.port := rfl
@[simp] theorem setRun_clock (s : State) (r : RunRecord) : (s.setRun r).clock = s.clock := rfl
@[simp] theorem setRun_settings (s : State) (r : RunRecord) : (s.setRun r).settings = s.settings := rfl
@[simp] theorem setRun_channels (s : State) (r : RunRecord) : (s.setRun r).channels = s.channels := rfl
@[simp] theorem setRun_stage (s : State) (r : RunRecord) : (s.setRun r).stage = s.stage := rfl
@[simp] theorem setRun_rating (s : State) (r : RunRecord) : (s.setRun r).rating = s.rating := rfl
@[simp] theorem setRun_verticals (s : State) (r : RunRecord) : (s.setRun r).verticals = s.verticals := rfl
@[simp] theorem setRun_cable (s : State) (r : RunRecord) : (s.setRun r).cable = s.cable := rfl
@[simp] theorem setRun_gauging_nextId (s : State) (r : RunRecord) : (s.setRun r).gauging.nextId = s.gauging.nextId := rfl
@[simp] theorem setRun_gauging_visit (s : State) (r : RunRecord) : (s.setRun r).gauging.visit = s.gauging.visit := rfl
@[simp] theorem setRun_gauging_meter (s : State) (r : RunRecord) : (s.setRun r).gauging.meter = s.gauging.meter := rfl
@[simp] theorem setRun_gauging_dwell (s : State) (r : RunRecord) : (s.setRun r).gauging.dwell = s.gauging.dwell := rfl
@[simp] theorem setRun_gauging_arrivalDepth (s : State) (r : RunRecord) : (s.setRun r).gauging.arrivalDepth = s.gauging.arrivalDepth := rfl
@[simp] theorem setRun_gauging_run (s : State) (r : RunRecord) : (s.setRun r).gauging.run = r := rfl
@[simp] theorem setRun_warning (s : State) (r : RunRecord) : (s.setRun r).warning = s.warning := rfl
@[simp] theorem setRun_freeReads (s : State) (r : RunRecord) : (s.setRun r).freeReads = s.freeReads := rfl
@[simp] theorem setRun_resetHeld (s : State) (r : RunRecord) : (s.setRun r).resetHeld = s.resetHeld := rfl
@[simp] theorem setRun_pending (s : State) (r : RunRecord) : (s.setRun r).pending = s.pending := rfl

@[simp] theorem setBands_port (s : State) (t : ShiftTable) : (s.setBands t).port = s.port := rfl
@[simp] theorem setBands_clock (s : State) (t : ShiftTable) : (s.setBands t).clock = s.clock := rfl
@[simp] theorem setBands_settings (s : State) (t : ShiftTable) : (s.setBands t).settings = s.settings := rfl
@[simp] theorem setBands_channels (s : State) (t : ShiftTable) : (s.setBands t).channels = s.channels := rfl
@[simp] theorem setBands_stage (s : State) (t : ShiftTable) : (s.setBands t).stage = s.stage := rfl
@[simp] theorem setBands_rating_draft (s : State) (t : ShiftTable) : (s.setBands t).rating.draft = s.rating.draft := rfl
@[simp] theorem setBands_rating_active (s : State) (t : ShiftTable) : (s.setBands t).rating.active = s.rating.active := rfl
@[simp] theorem setBands_rating_adoption (s : State) (t : ShiftTable) : (s.setBands t).rating.adoption = s.rating.adoption := rfl
@[simp] theorem setBands_rating_ramp (s : State) (t : ShiftTable) : (s.setBands t).rating.ramp = s.rating.ramp := rfl
@[simp] theorem setBands_rating_bands (s : State) (t : ShiftTable) : (s.setBands t).rating.bands = t := rfl
@[simp] theorem setBands_verticals (s : State) (t : ShiftTable) : (s.setBands t).verticals = s.verticals := rfl
@[simp] theorem setBands_cable (s : State) (t : ShiftTable) : (s.setBands t).cable = s.cable := rfl
@[simp] theorem setBands_gauging (s : State) (t : ShiftTable) : (s.setBands t).gauging = s.gauging := rfl
@[simp] theorem setBands_warning (s : State) (t : ShiftTable) : (s.setBands t).warning = s.warning := rfl
@[simp] theorem setBands_freeReads (s : State) (t : ShiftTable) : (s.setBands t).freeReads = s.freeReads := rfl
@[simp] theorem setBands_resetHeld (s : State) (t : ShiftTable) : (s.setBands t).resetHeld = s.resetHeld := rfl
@[simp] theorem setBands_pending (s : State) (t : ShiftTable) : (s.setBands t).pending = s.pending := rfl

@[simp] theorem setRules_port (s : State) (t : RuleTable) : (s.setRules t).port = s.port := rfl
@[simp] theorem setRules_clock (s : State) (t : RuleTable) : (s.setRules t).clock = s.clock := rfl
@[simp] theorem setRules_settings (s : State) (t : RuleTable) : (s.setRules t).settings = s.settings := rfl
@[simp] theorem setRules_channels (s : State) (t : RuleTable) : (s.setRules t).channels = s.channels := rfl
@[simp] theorem setRules_stage (s : State) (t : RuleTable) : (s.setRules t).stage = s.stage := rfl
@[simp] theorem setRules_rating (s : State) (t : RuleTable) : (s.setRules t).rating = s.rating := rfl
@[simp] theorem setRules_verticals (s : State) (t : RuleTable) : (s.setRules t).verticals = s.verticals := rfl
@[simp] theorem setRules_cable (s : State) (t : RuleTable) : (s.setRules t).cable = s.cable := rfl
@[simp] theorem setRules_gauging (s : State) (t : RuleTable) : (s.setRules t).gauging = s.gauging := rfl
@[simp] theorem setRules_warning_effects (s : State) (t : RuleTable) : (s.setRules t).warning.effects = s.warning.effects := rfl
@[simp] theorem setRules_warning_level (s : State) (t : RuleTable) : (s.setRules t).warning.level = s.warning.level := rfl
@[simp] theorem setRules_warning_winning (s : State) (t : RuleTable) : (s.setRules t).warning.winning = s.warning.winning := rfl
@[simp] theorem setRules_warning_phase (s : State) (t : RuleTable) : (s.setRules t).warning.phase = s.warning.phase := rfl
@[simp] theorem setRules_warning_phaseElapsed (s : State) (t : RuleTable) : (s.setRules t).warning.phaseElapsed = s.warning.phaseElapsed := rfl
@[simp] theorem setRules_warning_beacon (s : State) (t : RuleTable) : (s.setRules t).warning.beacon = s.warning.beacon := rfl
@[simp] theorem setRules_warning_remote (s : State) (t : RuleTable) : (s.setRules t).warning.remote = s.warning.remote := rfl
@[simp] theorem setRules_warning_rules (s : State) (t : RuleTable) : (s.setRules t).warning.rules = t := rfl
@[simp] theorem setRules_freeReads (s : State) (t : RuleTable) : (s.setRules t).freeReads = s.freeReads := rfl
@[simp] theorem setRules_resetHeld (s : State) (t : RuleTable) : (s.setRules t).resetHeld = s.resetHeld := rfl
@[simp] theorem setRules_pending (s : State) (t : RuleTable) : (s.setRules t).pending = s.pending := rfl

/-! ### undriven -/

@[simp] theorem undriven_port_unitAddress (s : State) : s.undriven.port.unitAddress = s.port.unitAddress := rfl
@[simp] theorem undriven_port_cablewayFitted (s : State) : s.undriven.port.cablewayFitted = s.port.cablewayFitted := rfl
@[simp] theorem undriven_port_slot (s : State) : s.undriven.port.slot = s.port.slot := rfl
@[simp] theorem undriven_port_attention (s : State) : s.undriven.port.attention = s.port.attention := rfl
@[simp] theorem undriven_port_mask (s : State) : s.undriven.port.mask = s.port.mask := rfl
@[simp] theorem undriven_port_cursor (s : State) : s.undriven.port.cursor = s.port.cursor := rfl
@[simp] theorem undriven_port_sdo (s : State) : s.undriven.port.sdo = .highImpedance := rfl
@[simp] theorem undriven_port_ignoring (s : State) : s.undriven.port.ignoring = s.port.ignoring := rfl
@[simp] theorem undriven_clock (s : State) : s.undriven.clock = s.clock := rfl
@[simp] theorem undriven_settings (s : State) : s.undriven.settings = s.settings := rfl
@[simp] theorem undriven_channels (s : State) : s.undriven.channels = s.channels := rfl
@[simp] theorem undriven_stage (s : State) : s.undriven.stage = s.stage := rfl
@[simp] theorem undriven_rating (s : State) : s.undriven.rating = s.rating := rfl
@[simp] theorem undriven_verticals (s : State) : s.undriven.verticals = s.verticals := rfl
@[simp] theorem undriven_cable (s : State) : s.undriven.cable = s.cable := rfl
@[simp] theorem undriven_gauging (s : State) : s.undriven.gauging = s.gauging := rfl
@[simp] theorem undriven_warning (s : State) : s.undriven.warning = s.warning := rfl
@[simp] theorem undriven_freeReads (s : State) : s.undriven.freeReads = s.freeReads := rfl
@[simp] theorem undriven_pending (s : State) : s.undriven.pending = s.pending := rfl
@[simp] theorem undriven_resetHeld (s : State) : s.undriven.resetHeld = s.resetHeld := rfl

/-! ### periodIgnored -/

@[simp] theorem periodIgnored_port_unitAddress (s : State) : s.periodIgnored.port.unitAddress = s.port.unitAddress := rfl
@[simp] theorem periodIgnored_port_cablewayFitted (s : State) : s.periodIgnored.port.cablewayFitted = s.port.cablewayFitted := rfl
@[simp] theorem periodIgnored_port_slot (s : State) : s.periodIgnored.port.slot = s.port.slot := rfl
@[simp] theorem periodIgnored_port_attention (s : State) : s.periodIgnored.port.attention = s.port.attention := rfl
@[simp] theorem periodIgnored_port_mask (s : State) : s.periodIgnored.port.mask = s.port.mask := rfl
@[simp] theorem periodIgnored_port_cursor (s : State) : s.periodIgnored.port.cursor = s.port.cursor := rfl
@[simp] theorem periodIgnored_port_sdo (s : State) : s.periodIgnored.port.sdo = .highImpedance := rfl
@[simp] theorem periodIgnored_port_ignoring (s : State) : s.periodIgnored.port.ignoring = false := rfl
@[simp] theorem periodIgnored_clock (s : State) : s.periodIgnored.clock = s.clock := rfl
@[simp] theorem periodIgnored_settings (s : State) : s.periodIgnored.settings = s.settings := rfl
@[simp] theorem periodIgnored_channels (s : State) : s.periodIgnored.channels = s.channels := rfl
@[simp] theorem periodIgnored_stage (s : State) : s.periodIgnored.stage = s.stage := rfl
@[simp] theorem periodIgnored_rating (s : State) : s.periodIgnored.rating = s.rating := rfl
@[simp] theorem periodIgnored_verticals (s : State) : s.periodIgnored.verticals = s.verticals := rfl
@[simp] theorem periodIgnored_cable (s : State) : s.periodIgnored.cable = s.cable := rfl
@[simp] theorem periodIgnored_gauging (s : State) : s.periodIgnored.gauging = s.gauging := rfl
@[simp] theorem periodIgnored_warning (s : State) : s.periodIgnored.warning = s.warning := rfl
@[simp] theorem periodIgnored_freeReads (s : State) : s.periodIgnored.freeReads = s.freeReads := rfl
@[simp] theorem periodIgnored_pending (s : State) : s.periodIgnored.pending = s.pending := rfl
@[simp] theorem periodIgnored_resetHeld (s : State) : s.periodIgnored.resetHeld = s.resetHeld := rfl

/-! ### A reason raised when a condition holds -/

@[simp] theorem raiseIf_port_unitAddress (s : State) (b : Bool) (r : Reason) : (s.raiseIf b r).port.unitAddress = s.port.unitAddress := by
  cases b <;> rfl
@[simp] theorem raiseIf_port_cablewayFitted (s : State) (b : Bool) (r : Reason) : (s.raiseIf b r).port.cablewayFitted = s.port.cablewayFitted := by
  cases b <;> rfl
@[simp] theorem raiseIf_port_slot (s : State) (b : Bool) (r : Reason) : (s.raiseIf b r).port.slot = s.port.slot := by
  cases b <;> rfl
@[simp] theorem raiseIf_port_mask (s : State) (b : Bool) (r : Reason) : (s.raiseIf b r).port.mask = s.port.mask := by
  cases b <;> rfl
@[simp] theorem raiseIf_port_cursor (s : State) (b : Bool) (r : Reason) : (s.raiseIf b r).port.cursor = s.port.cursor := by
  cases b <;> rfl
@[simp] theorem raiseIf_port_sdo (s : State) (b : Bool) (r : Reason) : (s.raiseIf b r).port.sdo = s.port.sdo := by
  cases b <;> rfl
@[simp] theorem raiseIf_port_ignoring (s : State) (b : Bool) (r : Reason) : (s.raiseIf b r).port.ignoring = s.port.ignoring := by
  cases b <;> rfl
@[simp] theorem raiseIf_clock (s : State) (b : Bool) (r : Reason) : (s.raiseIf b r).clock = s.clock := by
  cases b <;> rfl
@[simp] theorem raiseIf_settings (s : State) (b : Bool) (r : Reason) : (s.raiseIf b r).settings = s.settings := by
  cases b <;> rfl
@[simp] theorem raiseIf_channels (s : State) (b : Bool) (r : Reason) : (s.raiseIf b r).channels = s.channels := by
  cases b <;> rfl
@[simp] theorem raiseIf_stage (s : State) (b : Bool) (r : Reason) : (s.raiseIf b r).stage = s.stage := by
  cases b <;> rfl
@[simp] theorem raiseIf_rating (s : State) (b : Bool) (r : Reason) : (s.raiseIf b r).rating = s.rating := by
  cases b <;> rfl
@[simp] theorem raiseIf_verticals (s : State) (b : Bool) (r : Reason) : (s.raiseIf b r).verticals = s.verticals := by
  cases b <;> rfl
@[simp] theorem raiseIf_cable (s : State) (b : Bool) (r : Reason) : (s.raiseIf b r).cable = s.cable := by
  cases b <;> rfl
@[simp] theorem raiseIf_gauging (s : State) (b : Bool) (r : Reason) : (s.raiseIf b r).gauging = s.gauging := by
  cases b <;> rfl
@[simp] theorem raiseIf_warning (s : State) (b : Bool) (r : Reason) : (s.raiseIf b r).warning = s.warning := by
  cases b <;> rfl
@[simp] theorem raiseIf_resetHeld (s : State) (b : Bool) (r : Reason) : (s.raiseIf b r).resetHeld = s.resetHeld := by
  cases b <;> rfl
@[simp] theorem raiseIf_freeReads (s : State) (b : Bool) (r : Reason) : (s.raiseIf b r).freeReads = s.freeReads := by
  cases b <;> rfl
@[simp] theorem raiseIf_pending (s : State) (b : Bool) (r : Reason) : (s.raiseIf b r).pending = s.pending := by
  cases b <;> rfl

end Sys2Proof.Machine
end

