-- ==== Sys2Proof/Laws/Cableway.lean ====
section
/-! SUPPORT. What the operations of the Cableway Controller and the Gauging Unit leave unchanged, said once:
`CableFrame s t` holds from the state before such an operation to the state after it. What a period boundary does to a
drive. -/

namespace Sys2Proof.Machine

/-- From s to t no drive is turned on and no direction line moves. -/
def DriveFrame {δ : Type} (d e : Drive δ) : Prop := e.way = d.way ∧ (e.on = true → d.on = true)

/-- The fields of a vertical that no run writes (R84). -/
def Vertical.fixed (v : Vertical) : Int × MeasurePlan × SkipFlag := (v.distance, v.plan, v.skip)

/-- What the operations of the cableway and of a run leave: every other block, the contacts, the fixed fields of the
verticals, the meter, AnswerReady and every reason present; and they turn no drive on. -/
structure CableFrame (s t : State) : Prop where
  clock : t.clock = s.clock
  settings : t.settings = s.settings
  channels : t.channels = s.channels
  stage : t.stage = s.stage
  rating : t.rating = s.rating
  warning : t.warning = s.warning
  freeReads : t.freeReads = s.freeReads
  pending : t.pending = s.pending
  resetHeld : t.resetHeld = s.resetHeld
  unitAddress : t.port.unitAddress = s.port.unitAddress
  cablewayFitted : t.port.cablewayFitted = s.port.cablewayFitted
  slot : t.port.slot = s.port.slot
  mask : t.port.mask = s.port.mask
  cursor : t.port.cursor = s.port.cursor
  sdo : t.port.sdo = s.port.sdo
  ignoring : t.port.ignoring = s.port.ignoring
  answerReady : t.attends .answerReady = s.attends .answerReady
  raised : ∀ r, s.attends r = true → t.attends r = true
  contacts : t.cable.contacts = s.cable.contacts
  traverse : DriveFrame s.cable.traverse t.cable.traverse
  hoist : DriveFrame s.cable.hoist t.cable.hoist
  oneDrive : OneDriveLaw s → OneDriveLaw t
  verticals : t.verticals.map Vertical.fixed = s.verticals.map Vertical.fixed
  meter : t.gauging.meter = s.gauging.meter
  nextId : t.gauging.nextId = s.gauging.nextId

namespace CableFrame

theorem refl (s : State) : CableFrame s s :=
  { clock := rfl, settings := rfl, channels := rfl, stage := rfl, rating := rfl, warning := rfl, freeReads := rfl,
    pending := rfl, resetHeld := rfl, unitAddress := rfl, cablewayFitted := rfl, slot := rfl, mask := rfl, cursor := rfl,
    sdo := rfl, ignoring := rfl,
    answerReady := rfl, raised := fun _ => id, contacts := rfl, traverse := ⟨rfl, id⟩, hoist := ⟨rfl, id⟩, oneDrive := id,
    verticals := rfl, meter := rfl, nextId := rfl }

theorem trans {s t u : State} (h : CableFrame s t) (k : CableFrame t u) : CableFrame s u :=
  { clock := k.clock.trans h.clock, settings := k.settings.trans h.settings,
    channels := k.channels.trans h.channels, stage := k.stage.trans h.stage, rating := k.rating.trans h.rating,
    warning := k.warning.trans h.warning, freeReads := k.freeReads.trans h.freeReads,
    pending := k.pending.trans h.pending, resetHeld := k.resetHeld.trans h.resetHeld,
    unitAddress := k.unitAddress.trans h.unitAddress,
    cablewayFitted := k.cablewayFitted.trans h.cablewayFitted, slot := k.slot.trans h.slot,
    mask := k.mask.trans h.mask, cursor := k.cursor.trans h.cursor, sdo := k.sdo.trans h.sdo,
    ignoring := k.ignoring.trans h.ignoring,
    answerReady := k.answerReady.trans h.answerReady, raised := fun r a => k.raised r (h.raised r a), contacts := k.contacts.trans h.contacts,
    traverse := ⟨k.traverse.1.trans h.traverse.1, fun a => h.traverse.2 (k.traverse.2 a)⟩,
    hoist := ⟨k.hoist.1.trans h.hoist.1, fun a => h.hoist.2 (k.hoist.2 a)⟩,
    oneDrive := fun a => k.oneDrive (h.oneDrive a), verticals := k.verticals.trans h.verticals,
    meter := k.meter.trans h.meter, nextId := k.nextId.trans h.nextId }

/-- `trans` with the second part first. -/
theorem after {s t u : State} (k : CableFrame t u) (h : CableFrame s t) : CableFrame s u := h.trans k

/-- A cableway replaced, with the same contacts and no drive turned on or set in a new direction. -/
theorem of_cable (s : State) (c : Cableway) (hc : c.contacts = s.cable.contacts)
    (ht : DriveFrame s.cable.traverse c.traverse) (hh : DriveFrame s.cable.hoist c.hoist)
    (ho : OneDriveLaw s → OneDriveLaw (s.setCable c)) : CableFrame s (s.setCable c) :=
  { refl s with contacts := hc, traverse := ht, hoist := hh, oneDrive := ho }

/-- A cableway replaced with both drives as they were. -/
theorem of_drives_kept (s : State) (c : Cableway) (hc : c.contacts = s.cable.contacts)
    (ht : c.traverse = s.cable.traverse) (hh : c.hoist = s.cable.hoist) : CableFrame s (s.setCable c) :=
  of_cable s c hc ⟨by rw [ht], by rw [ht]; exact id⟩ ⟨by rw [hh], by rw [hh]; exact id⟩
    (by unfold OneDriveLaw; simp only [setCable_cable]; rw [ht, hh]; exact id)

/-- The Gauging Unit replaced, with the meter and the next id as they were. -/
theorem of_gauging (s : State) (g : GaugingUnit) (hm : g.meter = s.gauging.meter) (hn : g.nextId = s.gauging.nextId) :
    CableFrame s (s.setGauging g) :=
  { refl s with meter := hm, nextId := hn }

theorem of_run (s : State) (r : RunRecord) : CableFrame s (s.setRun r) := of_gauging s _ rfl rfl

theorem of_verticals (s : State) (vs : List Vertical) (h : vs.map Vertical.fixed = s.verticals.map Vertical.fixed) :
    CableFrame s (s.setVerticals vs) :=
  { refl s with verticals := h }

/-- A reason of the cableway or of a run raised. -/
theorem of_raise (s : State) (r : Reason) (h : r ≠ .answerReady) : CableFrame s (s.raise r) :=
  { refl s with
    answerReady := by
      cases r <;> first
        | exact absurd rfl h
        | (simp [State.attends, holdsReason, addReason, Reason.bit])
    raised := fun q hq => by
      have e : (s.raise r).attends q = (s.attends q || (BitVec.twoPow 12 r.bit).getLsbD q.bit) :=
        BitVec.getLsbD_or
      rw [e, hq, Bool.true_or] }

end CableFrame

/-! ### Drives -/

theorem Drive.off_frame {δ : Type} (d : Drive δ) : DriveFrame d d.off := ⟨rfl, fun h => by cases h⟩

theorem Drive.command_frame {δ : Type} (d : Drive δ) (w : δ) : DriveFrame d (d.command w) :=
  ⟨rfl, fun h => by cases h⟩

theorem Drive.turned_frame {δ : Type} (d : Drive δ) : DriveFrame d d.turned := ⟨rfl, id⟩

theorem Drive.off_active {δ : Type} (d : Drive δ) : d.off.active = false := rfl

/-- A cableway that keeps the contacts and has one drive off and the other off or commanded. -/
theorem CableFrame.of_runTraverse (s : State) (c : Cableway) (way : TraverseWay) (hc : c.contacts = s.cable.contacts)
    (ht : c.traverse = s.cable.traverse.command way) (hh : c.hoist = s.cable.hoist.off) :
    CableFrame s (s.setCable c) :=
  of_cable s c hc (ht ▸ Drive.command_frame _ _) (hh ▸ Drive.off_frame _) fun _ h => by
    simp only [setCable_cable, hh, Drive.off_active] at h; exact absurd h.2 (by decide)

theorem CableFrame.of_runHoist (s : State) (c : Cableway) (way : HoistWay) (hc : c.contacts = s.cable.contacts)
    (ht : c.traverse = s.cable.traverse.off) (hh : c.hoist = s.cable.hoist.command way) :
    CableFrame s (s.setCable c) :=
  of_cable s c hc (ht ▸ Drive.off_frame _) (hh ▸ Drive.command_frame _ _) fun _ h => by
    simp only [setCable_cable, ht, Drive.off_active] at h; exact absurd h.1 (by decide)

theorem CableFrame.of_stopped (s : State) (c : Cableway) (hc : c.contacts = s.cable.contacts)
    (ht : c.traverse = s.cable.traverse.off) (hh : c.hoist = s.cable.hoist.off) : CableFrame s (s.setCable c) :=
  of_cable s c hc (ht ▸ Drive.off_frame _) (hh ▸ Drive.off_frame _) fun _ h => by
    simp only [setCable_cable, ht, Drive.off_active] at h; exact absurd h.1 (by decide)

theorem CableFrame.of_traverseOff (s : State) (c : Cableway) (hc : c.contacts = s.cable.contacts)
    (ht : c.traverse = s.cable.traverse.off) (hh : c.hoist = s.cable.hoist) : CableFrame s (s.setCable c) :=
  of_cable s c hc (ht ▸ Drive.off_frame _) (hh ▸ ⟨rfl, id⟩) fun _ h => by
    simp only [setCable_cable, ht, Drive.off_active] at h; exact absurd h.1 (by decide)

/-- Two replacements of the cableway in turn are one. -/
theorem setCable_setCable (s : State) (c d : Cableway) : (s.setCable c).setCable d = s.setCable d := rfl

/-! ### Movements -/

theorem rest_frame (s : State) (x : CarriageState) : CableFrame s (s.rest x) := CableFrame.of_stopped s _ rfl rfl rfl

theorem endMovement_frame (s : State) (x : CarriageState) (r : MoveResult) : CableFrame s (endMovement s x r).state :=
  rest_frame s x

theorem travel_frame (way : TraverseWay) (s : State) : CableFrame s (travel way s) := by
  unfold travel
  split
  · exact CableFrame.of_runTraverse s _ way rfl rfl rfl
  · split
    · exact CableFrame.of_traverseOff s _ rfl rfl rfl
    · exact CableFrame.of_runHoist s _ .up rfl rfl rfl

theorem testSlowZone_frame (s : State) : CableFrame s (testSlowZone s) := by
  unfold testSlowZone
  split
  · exact CableFrame.of_drives_kept s _ rfl rfl rfl
  · exact CableFrame.refl s

theorem traverseTests_frame (s : State) : CableFrame s (traverseTests s).state := by
  unfold traverseTests
  split
  · split
    · exact endMovement_frame _ _ _
    · exact testSlowZone_frame s
  · exact testSlowZone_frame s

theorem hoistTests_frame (s : State) : CableFrame s (hoistTests s).state := by
  unfold hoistTests
  repeat' split
  all_goals first
    | exact endMovement_frame _ _ _
    | exact CableFrame.refl s

theorem takeTraverseTo_frame (target : Int) (s : State) : CableFrame s (takeTraverseTo target s).state := by
  unfold takeTraverseTo
  dsimp only
  repeat' split
  all_goals first
    | exact endMovement_frame _ _ _
    | exact CableFrame.after (travel_frame _ _) (CableFrame.of_drives_kept s _ rfl rfl rfl)

theorem takeGoHome_frame (s : State) : CableFrame s (takeGoHome s).state := by
  unfold takeGoHome
  split
  · exact endMovement_frame _ _ _
  · exact CableFrame.after (travel_frame _ _) (CableFrame.of_drives_kept s _ rfl rfl rfl)

theorem takeLowerTo_frame (target : Int) (stop : Bool) (s : State) :
    CableFrame s (takeLowerTo target stop s).state := by
  unfold takeLowerTo
  split
  · exact CableFrame.after (endMovement_frame _ _ _) (CableFrame.of_drives_kept s _ rfl rfl rfl)
  · exact CableFrame.after (hoistTests_frame _) (CableFrame.of_runHoist s _ .down rfl rfl rfl)

theorem takeMovement_frame (m : MoveRequest) (s : State) : CableFrame s (takeMovement m s).state := by
  unfold takeMovement
  split
  · exact CableFrame.refl s
  · split
    · exact takeTraverseTo_frame _ _
    · exact takeTraverseTo_frame _ _
    · exact takeGoHome_frame _
    · exact takeGoHome_frame _
    · exact takeLowerTo_frame _ _ _
    · exact CableFrame.after (hoistTests_frame _) (CableFrame.of_runHoist s _ .up rfl rfl rfl)
    · exact CableFrame.after (hoistTests_frame _) (CableFrame.of_runHoist s _ .up rfl rfl rfl)
    · exact CableFrame.refl s

theorem stopMovement_frame (s : State) : CableFrame s (stopMovement s).state := by
  unfold stopMovement
  split
  · exact endMovement_frame _ _ _
  all_goals exact CableFrame.refl s

/-! ### Homing, faults and tests -/

theorem loadHome_frame (s : State) : CableFrame s (loadHome s) :=
  CableFrame.of_cable s _ rfl (Drive.turned_frame _) ⟨rfl, id⟩ id

theorem beginPhase_frame (p : HomingPhase) (way : TraverseWay) (s : State) : CableFrame s (beginPhase p way s) :=
  CableFrame.after (travel_frame _ _) (CableFrame.of_drives_kept s _ rfl rfl rfl)

theorem afterRaisePhase_frame (s : State) : CableFrame s (afterRaisePhase s) := by
  unfold afterRaisePhase
  repeat' split
  · exact (loadHome_frame s).trans (rest_frame _ _)
  · exact beginPhase_frame _ _ s
  · exact beginPhase_frame _ _ s

theorem beginHoming_frame (s : State) : CableFrame s (beginHoming s) := by
  unfold beginHoming
  dsimp only
  split
  · exact CableFrame.after (afterRaisePhase_frame _) (CableFrame.of_drives_kept s _ rfl rfl rfl)
  · exact CableFrame.of_runHoist s _ .up rfl rfl rfl

theorem takeFault_frame (k : FaultKind) (s : State) : CableFrame s (takeFault k s).state :=
  CableFrame.after (CableFrame.of_raise _ .carriageFault (by decide)) (CableFrame.of_stopped s _ rfl rfl rfl)

theorem snagTest_frame (s : State) : CableFrame s (snagTest s).state := by
  unfold snagTest
  split
  · exact takeFault_frame _ _
  · exact CableFrame.refl s

theorem jamTest_frame (s : State) : CableFrame s (jamTest s).state := by
  unfold jamTest
  repeat' split
  all_goals first
    | exact takeFault_frame _ _
    | exact CableFrame.refl s

theorem jamExpiry_frame (d : DriveName) (s : State) : CableFrame s (jamExpiry d s).state := by
  unfold jamExpiry
  repeat' split
  all_goals first
    | exact takeFault_frame _ _
    | exact CableFrame.refl s

theorem resumeTravel_frame (way : TraverseWay) (s : State) : CableFrame s (resumeTravel way s).state := by
  unfold resumeTravel
  split
  · exact endMovement_frame _ _ _
  · exact travel_frame _ _

theorem carryTest_frame (s : State) : CableFrame s (carryTest s).state := by
  unfold carryTest
  repeat' split
  all_goals first
    | exact resumeTravel_frame _ _
    | exact travel_frame _ _
    | exact CableFrame.refl s

theorem enforceCarry_frame (s : State) : CableFrame s (enforceCarry s) := by
  unfold enforceCarry
  split
  · exact CableFrame.refl s
  · exact CableFrame.of_traverseOff s _ rfl rfl rfl

theorem contactEnds_frame (s : State) : CableFrame s (contactEnds s).state := by
  unfold contactEnds
  repeat' split
  all_goals first
    | exact carryTest_frame _
    | exact hoistTests_frame _
    | exact CableFrame.refl s
    | exact beginPhase_frame _ _ _
    | exact afterRaisePhase_frame _

theorem contactTests_frame (s : State) : CableFrame s (contactTests s).state :=
  (enforceCarry_frame s).trans (contactEnds_frame _)

theorem homeEdge_frame (s : State) : CableFrame s (homeEdge s).state := by
  unfold homeEdge
  split
  · exact (loadHome_frame s).trans (endMovement_frame _ _ _)
  · exact (loadHome_frame s).trans (rest_frame _ _)
  · exact (loadHome_frame s).trans (traverseTests_frame _)

theorem wetEdge_frame (s : State) : CableFrame s (wetEdge s).state := by
  unfold wetEdge
  split
  · exact CableFrame.after (hoistTests_frame _) (CableFrame.of_cable s _ rfl ⟨rfl, id⟩ (Drive.turned_frame _) id)
  · exact CableFrame.refl s

theorem traverseCountChange_frame (e : QuadratureEdge) (s : State) :
    CableFrame s (traverseCountChange e s).state := by
  unfold traverseCountChange
  split
  · exact CableFrame.refl s
  · exact CableFrame.after (traverseTests_frame _) (CableFrame.of_cable s _ rfl (Drive.turned_frame _) ⟨rfl, id⟩ id)

theorem depthCountChange_frame (e : QuadratureEdge) (s : State) : CableFrame s (depthCountChange e s).state := by
  unfold depthCountChange
  split
  · exact CableFrame.refl s
  · exact CableFrame.after (hoistTests_frame _) (CableFrame.of_cable s _ rfl ⟨rfl, id⟩ (Drive.turned_frame _) id)

theorem heldBack_frame (s : State) : CableFrame s (s.setCable s.cable.heldBack) := by
  refine CableFrame.of_cable s _ rfl ?_ ?_ ?_
  · unfold Cableway.heldBack
    dsimp only
    split
    · exact Drive.off_frame _
    · exact ⟨rfl, id⟩
  · unfold Cableway.heldBack
    dsimp only
    split
    · exact Drive.off_frame _
    · exact ⟨rfl, id⟩
  · unfold OneDriveLaw Cableway.heldBack
    intro h
    simp only [setCable_cable]
    split <;> split <;> simp_all [Drive.off_active]

theorem inhibitCable_frame (s : State) : CableFrame s (inhibitCable s).state := by
  unfold inhibitCable
  dsimp only
  repeat' split
  all_goals first
    | exact heldBack_frame s
    | exact (heldBack_frame s).trans (endMovement_frame _ _ _)
    | exact (heldBack_frame s).trans (beginPhase_frame _ _ _)

/-! ### A drive at a period boundary -/

/-- R93: a waiting drive starts where it may. -/
theorem atBoundary_starts {δ : Type} {d : Drive δ} {may : δ → Bool} {duty : Int} {way : δ} (h : d.start = some way)
    (hm : may way = true) : d.atBoundary may duty = d.begin way duty := by
  unfold Drive.atBoundary
  rw [h]
  exact if_pos hm

/-- R93: a waiting drive that may not start waits on. -/
theorem atBoundary_waits {δ : Type} {d : Drive δ} {may : δ → Bool} {duty : Int} {way : δ} (h : d.start = some way)
    (hm : may way = false) : d.atBoundary may duty = d := by
  unfold Drive.atBoundary
  rw [h]
  exact if_neg (by rw [hm]; decide)

/-- R93: a drive that is on takes the duty in force. -/
theorem atBoundary_on {δ : Type} {d : Drive δ} (may : δ → Bool) (duty : Int) (h : d.start = none) (ho : d.on = true) :
    d.atBoundary may duty = { d with duty := duty } := by
  unfold Drive.atBoundary
  rw [h]
  exact if_pos ho

/-- A drive that is off and does not wait stays as it is. -/
theorem atBoundary_off {δ : Type} {d : Drive δ} (may : δ → Bool) (duty : Int) (h : d.start = none)
    (ho : d.on = false) : d.atBoundary may duty = d := by
  unfold Drive.atBoundary
  rw [h]
  exact if_neg (by rw [ho]; decide)

end Sys2Proof.Machine
end

