-- ==== Sys2Proof/Laws/Gauging.lean ====
section
/-! SUPPORT. The Gauging Unit's operations keep what `CableFrame` says: results taken, chains of results, runs started,
aborted and ended. -/

namespace Sys2Proof.Machine

theorem ask_frame (x : Step) (m : MoveRequest) (s : State) : CableFrame s (ask x m s).state :=
  CableFrame.after (takeMovement_frame _ _) (CableFrame.of_run s _)

theorem updateEntry_frame (s : State) (f : Entry → Entry) : CableFrame s (s.updateEntry f) := CableFrame.of_run s _

theorem appendEntries_frame (s : State) (es : List Entry) : CableFrame s (s.appendEntries es) := CableFrame.of_run s _

theorem endRun_frame (r : RunRecord) (s : State) : CableFrame s (endRun r s) :=
  CableFrame.after (CableFrame.of_raise _ .runEnded (by decide)) (CableFrame.of_gauging s _ rfl rfl)

theorem finishReturn_frame (s : State) : CableFrame s (finishReturn s) := by
  unfold finishReturn
  split
  · exact endRun_frame _ _
  · exact endRun_frame _ _

theorem abortRun_frame (reason : EndReason) (s : State) : CableFrame s (abortRun reason s).state := by
  have h : ∀ r, CableFrame s (s.setGauging { s.gauging with run := r, dwell := none }) :=
    fun r => CableFrame.of_gauging s _ rfl rfl
  unfold abortRun
  dsimp only
  split
  · exact CableFrame.after (stopMovement_frame _) (h _)
  · exact CableFrame.after (stopMovement_frame _) (h _)
  · exact h _
  · exact CableFrame.after (finishReturn_frame _) (h _)
  · exact CableFrame.after (ask_frame _ _ _) (h _)

theorem faultedEnd_frame (s : State) : CableFrame s (faultedEnd s) := by
  unfold faultedEnd
  split <;> exact endRun_frame _ _

theorem enterVertical_frame (i : Nat) (s : State) : CableFrame s (enterVertical i s) := by
  unfold enterVertical
  split
  · exact CableFrame.after (appendEntries_frame _ _) (CableFrame.of_run s _)
  · exact CableFrame.refl s

theorem traverseToVertical_frame (i : Nat) (s : State) : CableFrame s (traverseToVertical i s).state := by
  unfold traverseToVertical
  split
  · exact ask_frame _ _ _
  · exact CableFrame.refl s

theorem endMeasuring_frame (s : State) : CableFrame s (endMeasuring s).state :=
  CableFrame.after (ask_frame _ _ _) (CableFrame.of_run s _)

theorem finishVertical_frame (s : State) : CableFrame s (finishVertical s).state := by
  unfold finishVertical
  split
  · exact CableFrame.after (traverseToVertical_frame _ _) (enterVertical_frame _ _)
  · exact endMeasuring_frame s

theorem stow_frame (s : State) : CableFrame s (stow s).state := ask_frame _ _ _

theorem stowDry_frame (s : State) : CableFrame s (stowDry s).state :=
  CableFrame.after (stow_frame _) (updateEntry_frame s _)

theorem placeNext_frame (s : State) : CableFrame s (placeNext s).state := by
  unfold placeNext
  repeat' split
  all_goals exact ask_frame _ _ _

theorem beginDwell_frame (surface : Bool) (s : State) : CableFrame s (beginDwell surface s).state :=
  CableFrame.after (CableFrame.of_gauging _ _ rfl rfl) (CableFrame.of_run s _)

theorem arriveWith_frame (i : Nat) (v : Vertical) (stage : Int) (s : State) :
    CableFrame s (arriveWith i v stage s).state := by
  have h : ∀ es r d, CableFrame s
      ((s.appendEntries es).setGauging { (s.appendEntries es).gauging with run := r, arrivalDepth := d }) :=
    fun es r d => CableFrame.after (CableFrame.of_gauging _ _ rfl rfl) (appendEntries_frame s es)
  unfold arriveWith
  dsimp only
  repeat' split
  · exact CableFrame.after (finishVertical_frame _) ((h _ _ _).trans (updateEntry_frame _ _))
  · exact CableFrame.after (ask_frame _ _ _) ((h _ _ _).trans (CableFrame.of_run _ _))
  · exact CableFrame.after (ask_frame _ _ _) (h _ _ _)

theorem arrival_frame (s : State) : CableFrame s (arrival s).state := by
  unfold arrival
  repeat' split
  all_goals first
    | exact abortRun_frame _ _
    | exact arriveWith_frame _ _ _ _
    | exact CableFrame.refl s

/-- R89: a sounding writes the bed, its source and its time, and nothing else of a vertical. -/
theorem Vertical.sound_fixed (tolerance : Int) (clock : Word) (bed : Int) (v : Vertical) :
    (v.sound tolerance clock bed).1.fixed = v.fixed := by
  unfold Vertical.sound
  split <;> rfl

theorem map_set_fixed (vs : List Vertical) (i : Nat) (v w : Vertical) (h : vs[i]? = some v)
    (hw : w.fixed = v.fixed) : (vs.set i w).map Vertical.fixed = vs.map Vertical.fixed := by
  rw [List.map_set, hw]
  apply List.ext_getElem?
  intro k
  by_cases hk : i = k
  · subst hk
    simp [List.getElem?_set, h]
    exact (List.getElem?_eq_some_iff.mp h).1
  · simp [hk]

theorem takeSounding_frame (i : Nat) (depth : Int) (s : State) : CableFrame s (takeSounding i depth s).1 := by
  unfold takeSounding
  split
  · next h => exact CableFrame.of_verticals s _ (map_set_fixed _ _ _ _ h (Vertical.sound_fixed _ _ _ _))
  · exact CableFrame.refl s

theorem bottomFound_frame (depth : Int) (s : State) : CableFrame s (bottomFound depth s).state := by
  have h : ∀ f r, CableFrame s ((((takeSounding (s.run.current.getD 0) depth s).1).updateEntry f).setRun r) :=
    fun f r => ((takeSounding_frame _ _ s).trans (updateEntry_frame _ f)).trans (CableFrame.of_run _ r)
  unfold bottomFound
  dsimp only
  split
  · exact CableFrame.after (stow_frame _) ((h _ _).trans (updateEntry_frame _ _))
  · exact CableFrame.after (placeNext_frame _) (h _ _)

theorem soundResult_frame (how : LowerEnd) (s : State) : CableFrame s (soundResult how s).state := by
  unfold soundResult
  split
  · exact bottomFound_frame _ _
  · exact stowDry_frame s
  · exact CableFrame.after (placeNext_frame _) (updateEntry_frame s _)
  · exact stowDry_frame s

theorem surfaceResult_frame (how : LowerEnd) (s : State) : CableFrame s (surfaceResult how s).state := by
  unfold surfaceResult
  split
  · exact beginDwell_frame _ s
  · exact beginDwell_frame _ s
  · exact stowDry_frame s
  · exact stowDry_frame s

theorem lowerResult_frame (how : LowerEnd) (stop : Bool) (s : State) :
    CableFrame s (lowerResult how stop s).state := by
  unfold lowerResult
  split
  · exact soundResult_frame _ s
  · exact surfaceResult_frame _ s

theorem restartRun_frame (s : State) : CableFrame s (restartRun s) := by
  unfold restartRun
  split
  all_goals first
    | exact endRun_frame _ _
    | exact CableFrame.refl s

theorem takeResult_frame (r : MoveResult) (s : State) : CableFrame s (takeResult r s).state := by
  unfold takeResult
  split
  all_goals first
    | exact abortRun_frame _ _
    | exact faultedEnd_frame s
    | exact arrival_frame s
    | exact lowerResult_frame _ _ s
    | exact restartRun_frame s
    | exact beginDwell_frame _ s
    | exact finishVertical_frame s
    | exact ask_frame _ _ _
    | exact finishReturn_frame s
    | exact CableFrame.refl s

theorem drain_frame (n : Nat) (r : MoveResult) (s : State) : CableFrame s (drain n r s) := by
  induction n generalizing r s with
  | zero => exact CableFrame.refl s
  | succ n ih =>
    unfold drain
    split
    · exact takeResult_frame r s
    · exact (takeResult_frame r s).trans (ih _ _)

theorem deliver_frame (m : Moved) : CableFrame m.state (deliver m) := by
  unfold deliver
  split
  · exact CableFrame.refl _
  · exact drain_frame _ _ _

theorem startRunning_frame (s : State) : CableFrame s (startRunning s) := by
  have h : ∀ r v, CableFrame s ((s.setGauging { s.gauging with run := r, visit := v }).raise .runStarted) :=
    fun r v => CableFrame.after (CableFrame.of_raise _ .runStarted (by decide)) (CableFrame.of_gauging s _ rfl rfl)
  unfold startRunning
  dsimp only
  split
  · exact h _ _
  · split
    · exact CableFrame.after (deliver_frame _)
        (((h _ _).trans (enterVertical_frame _ _)).trans (abortRun_frame _ _))
    · exact CableFrame.after (deliver_frame _)
        (((h _ _).trans (enterVertical_frame _ _)).trans (traverseToVertical_frame _ _))

theorem startIfReady_frame (s : State) : CableFrame s (startIfReady s) := by
  unfold startIfReady
  split
  · exact startRunning_frame s
  · exact CableFrame.refl s

theorem gaugingTakesPublication_frame (s : State) : CableFrame s (gaugingTakesPublication s) := by
  unfold gaugingTakesPublication
  split
  · exact CableFrame.after (startIfReady_frame _) (CableFrame.of_run s _)
  · exact startIfReady_frame s

theorem inhibitRun_frame (s : State) : CableFrame s (inhibitRun s) := by
  unfold inhibitRun
  split
  · exact CableFrame.after (deliver_frame _) (abortRun_frame _ s)
  · exact CableFrame.refl s

theorem waitExpiry_frame (s : State) : CableFrame s (waitExpiry s) := by
  unfold waitExpiry
  split
  · exact endRun_frame _ _
  · exact CableFrame.refl s

theorem meterPulse_frame (s : State) : CableFrame s (meterPulse s) := by
  unfold meterPulse
  split
  · exact CableFrame.of_gauging s _ rfl rfl
  · exact CableFrame.refl s

theorem recordPoint_frame (d : Dwell) (s : State) : CableFrame s (recordPoint d s).state := by
  unfold recordPoint
  dsimp only
  repeat' split
  all_goals first
    | exact CableFrame.after (stow_frame _) (updateEntry_frame s _)
    | exact CableFrame.after (placeNext_frame _) (updateEntry_frame s _)
    | exact CableFrame.after (stow_frame _) ((updateEntry_frame s _).trans (updateEntry_frame _ _))

theorem dwellExpiry_frame (s : State) : CableFrame s (dwellExpiry s) := by
  unfold dwellExpiry
  split
  · exact CableFrame.after (deliver_frame _)
      (CableFrame.after (recordPoint_frame _ _) (CableFrame.of_gauging s _ rfl rfl))
  · exact CableFrame.refl s

theorem restartCable_frame (s : State) : CableFrame s (restartCable s).state :=
  CableFrame.of_stopped s _ rfl rfl rfl

theorem inhibitEnters_frame (s : State) : CableFrame s (inhibitEnters s) :=
  CableFrame.after (inhibitRun_frame _) (CableFrame.after (deliver_frame _) (inhibitCable_frame s))

end Sys2Proof.Machine
end

