-- ==== Sys2Proof/Laws/Requests.lean ====
section
/-! SUPPORT. What each request's owner can do, said once: it refuses and leaves the state, or it is taken, in one of
the forms named. -/

namespace Sys2Proof.Machine

theorem within_iff (lo hi v : Int) : within lo hi v = true ↔ lo ≤ v ∧ v ≤ hi := by
  unfold within
  rw [Bool.and_eq_true, decide_eq_true_eq, decide_eq_true_eq]

/-- An owner's result that refuses and leaves the state. -/
def Turned (t : Taken) (s : State) : Prop := ∃ why detail, t = refused s why detail

theorem turned_badField (s : State) (k : Nat) : Turned (badField s k) s := ⟨_, _, rfl⟩

theorem turned_refused (s : State) (why : Reject) (k : Nat) : Turned (refused s why k) s := ⟨_, _, rfl⟩

theorem Turned.state {t : Taken} {s : State} (h : Turned t s) : t.state = s := by
  obtain ⟨_, _, rfl⟩ := h; rfl

theorem bare_cases (p : List Byte) (s : State) (act : Taken) : Turned (bare p s act) s ∨ (p = [] ∧ bare p s act = act) := by
  unfold bare
  split
  · exact Or.inr ⟨rfl, rfl⟩
  · exact Or.inl (turned_badField _ _)

/-! ### Reads -/

/-- An owner's result that answers Done and changes nothing. -/
def Answers (t : Taken) (s : State) : Prop := ∃ body, t = done s body

theorem identify_cases (p : List Byte) (s : State) : Turned (identify p s) s ∨ Answers (identify p s) s :=
  (bare_cases p s _).imp id fun h => ⟨_, h.2⟩

theorem readClock_cases (p : List Byte) (s : State) : Turned (readClock p s) s ∨ Answers (readClock p s) s :=
  (bare_cases p s _).imp id fun h => ⟨_, h.2⟩

theorem readStation_cases (p : List Byte) (s : State) : Turned (readStation p s) s ∨ Answers (readStation p s) s :=
  (bare_cases p s _).imp id fun h => ⟨_, h.2⟩

theorem readSettings_cases (p : List Byte) (s : State) :
    Turned (readSettings p s) s ∨ Answers (readSettings p s) s := by
  unfold readSettings
  repeat' split
  all_goals first
    | exact Or.inl (turned_badField _ _)
    | exact Or.inr ⟨_, rfl⟩

theorem readChannel_cases (p : List Byte) (s : State) : Turned (readChannel p s) s ∨ Answers (readChannel p s) s := by
  unfold readChannel
  repeat' split
  all_goals first
    | exact Or.inl (turned_badField _ _)
    | exact Or.inr ⟨_, rfl⟩

theorem readShifts_cases (p : List Byte) (s : State) : Turned (readShifts p s) s ∨ Answers (readShifts p s) s := by
  unfold readShifts
  split
  · exact Or.inr ⟨_, rfl⟩
  · exact Or.inl (turned_badField _ _)

theorem lookup_cases (p : List Byte) (s : State) : Turned (lookup p s) s ∨ Answers (lookup p s) s := by
  unfold lookup
  repeat' split
  all_goals first
    | exact Or.inl (turned_badField _ _)
    | exact Or.inl (turned_refused _ _ _)
    | exact Or.inr ⟨_, rfl⟩

theorem readRun_cases (p : List Byte) (s : State) : Turned (readRun p s) s ∨ Answers (readRun p s) s := by
  unfold readRun
  repeat' split
  all_goals first
    | exact Or.inl (turned_badField _ _)
    | exact Or.inr ⟨_, rfl⟩

theorem onRuleSlot_cases (p : List Byte) (s : State) (act : Nat → Option Rule → Taken) :
    Turned (onRuleSlot p s act) s ∨ ∃ k, k < Config.rules ∧ onRuleSlot p s act = act k (s.warning.rules.rule k) := by
  unfold onRuleSlot
  repeat' split
  · exact Or.inl (turned_badField _ _)
  · next h =>
    refine Or.inr ⟨_, ?_, rfl⟩
    unfold slotOf at h
    split at h
    · next hw =>
      cases h
      simp only [within, Bool.and_eq_true, decide_eq_true_eq] at hw
      omega
    · cases h
  · exact Or.inl (turned_badField _ _)

theorem readRule_cases (p : List Byte) (s : State) : Turned (readRule p s) s ∨ Answers (readRule p s) s := by
  unfold readRule
  split
  · exact Or.inr ⟨_, rfl⟩
  · rcases onRuleSlot_cases p s (fun k rule => done s (ruleBytes k rule)) with h | ⟨k, _, h⟩
    · exact Or.inl h
    · exact Or.inr ⟨_, h⟩

/-! ### The port's own requests -/

theorem slotOf_lt {n : Nat} {w : Word} {k : Nat} (h : slotOf n w = some k) : k < n := by
  unfold slotOf at h
  split at h
  · next hw =>
    cases h
    simp only [within, Bool.and_eq_true, decide_eq_true_eq] at hw
    omega
  · cases h

theorem readAttention_cases (p : List Byte) (s : State) : Turned (readAttention p s) s ∨ ∃ body,
    readAttention p s = done (s.setAttention 0) body := by
  refine (bare_cases p s _).imp id fun h => ⟨be2 s.port.attention.toNat ++ be2 s.port.mask.toNat, ?_⟩
  · refine h.2.trans ?_
    have : s.port.attention &&& ~~~ s.port.attention = 0 := by
      apply BitVec.eq_of_getLsbD_eq
      intro i hi
      simp [hi]
    rw [this]

theorem setAttentionMask_cases (p : List Byte) (s : State) :
    Turned (setAttentionMask p s) s ∨ Answers (setAttentionMask p s) s ∨
      ∃ w m body, maskOf w = some m ∧ setAttentionMask p s = done (s.setPort { s.port with mask := m }) body := by
  unfold setAttentionMask
  repeat' split
  all_goals first
    | exact Or.inl (turned_badField _ _)
    | exact Or.inr (Or.inl ⟨_, rfl⟩)
    | exact Or.inr (Or.inr ⟨_, _, _, by assumption, rfl⟩)

theorem setClock_cases (p : List Byte) (s : State) : Turned (setClock p s) s ∨ ∃ c body,
    setClock p s = done (s.setClock c) body := by
  unfold setClock
  split
  · exact Or.inr ⟨_, _, rfl⟩
  · exact Or.inl (turned_badField _ _)

theorem writeSettings_cases (p : List Byte) (s : State) : Turned (writeSettings p s) s ∨
    ∃ ps body, settingPairs p = some ps ∧ checkPairs ps = none ∧
      checkSettings s ps (applyPairs s.settings ps) = none ∧
      writeSettings p s = done (applySettings (applyPairs s.settings ps) s) body := by
  unfold writeSettings
  repeat' split
  all_goals first
    | exact Or.inl (turned_badField _ _)
    | exact Or.inl (turned_refused _ _ _)
    | exact Or.inr ⟨_, _, by assumption, by assumption, by assumption, rfl⟩

theorem restart_cases (p : List Byte) (s : State) : Turned (restart p s) s ∨ ∃ body,
    restart p s = done (restartBlocks s) body :=
  (bare_cases p s _).imp id fun h => ⟨_, h.2⟩

theorem setCursor_cases (p : List Byte) (s : State) : Turned (setCursor p s) s ∨ Answers (setCursor p s) s ∨
    ∃ t k body, k < t.slots ∧ setCursor p s = done (s.setCursor { table := t, index := k, fields := [] }) body := by
  unfold setCursor
  repeat' split
  all_goals first
    | exact Or.inl (turned_badField _ _)
    | exact Or.inr (Or.inl ⟨_, rfl⟩)
    | exact Or.inr (Or.inr ⟨_, _, _, slotOf_lt (by assumption), rfl⟩)

theorem readEntries_cases (p : List Byte) (s : State) : Turned (readEntries p s) s ∨
    ∃ n body, s.port.cursor.fields = [] ∧ readEntries p s = done (s.advanceCursor n) body := by
  unfold readEntries
  dsimp only
  repeat' split
  all_goals first
    | exact Or.inl (turned_badField _ _)
    | exact Or.inl (turned_refused _ _ _)
    | exact Or.inr ⟨_, _, Decidable.of_not_not (by assumption), rfl⟩

theorem writeFields_cases (p : List Byte) (s : State) :
    (writeFields p s).state = s ∨
      ∃ ws, readWords p = some ws ∧ s.port.cursor.table ≠ .active ∧ writeFields p s = takeValues ws 0 s := by
  unfold writeFields
  repeat' split
  all_goals first
    | exact Or.inl rfl
    | exact Or.inr ⟨_, by assumption, by assumption, rfl⟩

/-! ### Channels and vote -/

theorem configureChannel_cases (p : List Byte) (s : State) : Turned (configureChannel p s) s ∨
    ∃ i c, configureChannel p s = done (s.putChannel i c) [] ∧
      (c = (s.channel i).configuredOff s ∨ (∃ scale offset mark, c = (s.channel i).configuredEncoder s scale offset mark) ∨
        ∃ scale offset, c = (s.channel i).configuredFrequency s scale offset) := by
  unfold configureChannel
  repeat' split
  all_goals first
    | exact Or.inl (turned_badField _ _)
    | exact Or.inr ⟨_, _, rfl, Or.inl rfl⟩
    | exact Or.inr ⟨_, _, rfl, Or.inr (Or.inl ⟨_, _, _, rfl⟩)⟩
    | exact Or.inr ⟨_, _, rfl, Or.inr (Or.inr ⟨_, _, rfl⟩)⟩

theorem setChannelStage_cases (p : List Byte) (s : State) : Turned (setChannelStage p s) s ∨
    ∃ i offset body, (s.channel i).condition = .valid ∧
      setChannelStage p s = done (s.putChannel i ((s.channel i).corrected s offset)) body := by
  unfold setChannelStage
  dsimp only
  repeat' split
  all_goals first
    | exact Or.inl (turned_badField _ _)
    | exact Or.inl (turned_refused _ _ _)
    | exact Or.inr ⟨_, _, _, Decidable.of_not_not (by assumption), rfl⟩

theorem checkMaskOf_primary {p : ChannelNumber} {w : Word} {m : BitVec 4} (h : checkMaskOf p w = some m) :
    m.getLsbD p.val = false := by
  unfold checkMaskOf at h
  split at h
  · next hw =>
    cases h
    simp [hw.2]
  · cases h

theorem setVote_cases (p : List Byte) (s : State) : Turned (setVote p s) s ∨ Answers (setVote p s) s ∨
    ∃ u body, u.checks.getLsbD u.primary.val = false ∧
      setVote p s = done (s.setStage { s.stage with pendingSetup := some u }) body := by
  unfold setVote
  repeat' split
  all_goals first
    | exact Or.inl (turned_badField _ _)
    | exact Or.inr (Or.inl ⟨_, rfl⟩)
    | exact Or.inr (Or.inr ⟨_, _, checkMaskOf_primary (by assumption), rfl⟩)

/-! ### Ratings, bands and verticals -/

theorem retirePoint_cases (p : List Byte) (s : State) : Turned (retirePoint p s) s ∨
    ∃ k body, retirePoint p s = done (draftChange (s.rating.draft.eraseIdx k) s) body := by
  unfold retirePoint
  repeat' split
  all_goals first
    | exact Or.inl (turned_badField _ _)
    | exact Or.inl (turned_refused _ _ _)
    | exact Or.inr ⟨_, _, rfl⟩

theorem copyRating_cases (p : List Byte) (s : State) : Turned (copyRating p s) s ∨
    ∃ body, copyRating p s = done (draftChange s.rating.active.points s) body := by
  unfold copyRating
  split
  · exact Or.inr ⟨_, rfl⟩
  · exact Or.inl (turned_badField _ _)

theorem adoptRating_cases (p : List Byte) (s : State) : Turned (adoptRating p s) s ∨
    ∃ r, adoptRating p s =
      accepted (s.setRating { s.rating with adoption := { s.rating.adoption with request := some r } }) [] := by
  unfold adoptRating
  repeat' split
  all_goals first
    | exact Or.inl (turned_badField _ _)
    | exact Or.inl (turned_refused _ _ _)
    | exact Or.inr ⟨_, rfl⟩

theorem defineShift_cases (p : List Byte) (s : State) : Turned (defineShift p s) s ∨
    ∃ k lower upper target body, k < Config.shiftBands ∧ lower < upper ∧
      within (-s.setting .shiftLimit) (s.setting .shiftLimit) target = true ∧
      s.rating.bands.clash k lower upper = false ∧
      defineShift p s =
        done (s.setBands (s.rating.bands.put k
          (some (definedBand s (s.rating.bands.band k) lower upper target)))) body := by
  unfold defineShift
  dsimp only
  repeat' split
  all_goals first
    | exact Or.inl (turned_badField _ _)
    | exact Or.inl (turned_refused _ _ _)
    | exact Or.inr ⟨_, _, _, _, _, slotOf_lt (by assumption), by omega, by simp_all, by simp_all, rfl⟩

theorem retireShift_cases (p : List Byte) (s : State) : Turned (retireShift p s) s ∨
    ∃ k b body, k < Config.shiftBands ∧ s.rating.bands.band k = some b ∧
      retireShift p s = done (s.setBands (s.rating.bands.put k (some (b.retire s.clock)))) body := by
  unfold retireShift
  repeat' split
  all_goals first
    | exact Or.inl (turned_badField _ _)
    | exact Or.inl (turned_refused _ _ _)
    | exact Or.inr ⟨_, _, _, slotOf_lt (by assumption), by assumption, rfl⟩

theorem retireVertical_cases (p : List Byte) (s : State) : Turned (retireVertical p s) s ∨
    ∃ k body, s.sectionLocked = false ∧ k < s.verticals.length ∧
      retireVertical p s = done (startIfReady (s.setVerticals (s.verticals.eraseIdx k))) body := by
  unfold retireVertical
  repeat' split
  all_goals first
    | exact Or.inl (turned_badField _ _)
    | exact Or.inl (turned_refused _ _ _)
    | exact Or.inr ⟨_, _, by simp_all, by omega, rfl⟩

/-! ### Cableway and runs -/

theorem homeCarriage_cases (p : List Byte) (s : State) : Turned (homeCarriage p s) s ∨
    (s.fitted = true ∧ s.gauging.run.state ≠ .armed ∧ (s.cable.state = .unhomed ∨ s.cable.state = .parked) ∧
      homeCarriage p s = accepted (beginHoming s) []) := by
  unfold homeCarriage
  repeat' split
  all_goals first
    | exact Or.inl (turned_badField _ _)
    | exact Or.inl (turned_refused _ _ _)
    | (refine Or.inr ⟨by simp_all, by assumption, by assumption, rfl⟩)

theorem clearFault_cases (p : List Byte) (s : State) : Turned (clearFault p s) s ∨
    (s.cable.state = .halted ∧
      clearFault p s = done (s.setCable { s.cable with state := .unhomed, haltedKnown := false }) []) := by
  unfold clearFault
  repeat' split
  all_goals first
    | exact Or.inl (turned_badField _ _)
    | exact Or.inl (turned_refused _ _ _)
    | exact Or.inr ⟨by assumption, rfl⟩

theorem setMeter_cases (p : List Byte) (s : State) : Turned (setMeter p s) s ∨ Answers (setMeter p s) s ∨
    ∃ m body, s.run.state.locks = false ∧
      setMeter p s = done (s.setGauging { s.gauging with meter := m }) body := by
  unfold setMeter
  dsimp only
  repeat' split
  all_goals first
    | exact Or.inl (turned_badField _ _)
    | exact Or.inl (turned_refused _ _ _)
    | exact Or.inr (Or.inl ⟨_, rfl⟩)
    | exact Or.inr (Or.inr ⟨_, _, by simp_all, rfl⟩)

theorem startRun_cases (p : List Byte) (s : State) : Turned (startRun p s) s ∨
    ∃ c body, s.fitted = true ∧ s.cable.state = .parked ∧ 2 ≤ s.measureIndices.length ∧
      startRun p s = accepted (beginRun c s) body := by
  unfold startRun
  repeat' split
  all_goals first
    | exact Or.inl (turned_badField _ _)
    | exact Or.inl (turned_refused _ _ _)
    | exact Or.inr ⟨_, _, by simp_all, Decidable.of_not_not (by assumption), by omega, rfl⟩

theorem abortRunRequest_cases (p : List Byte) (s : State) : Turned (abortRunRequest p s) s ∨
    (s.run.state = .armed ∧ abortRunRequest p s =
      done (endRun { s.run.stampEnd s with state := .aborted, endReason := some .cancelled } s) []) ∨
    (s.run.state = .running ∧ abortRunRequest p s = done (deliver (abortRun .cancelled s)) []) := by
  unfold abortRunRequest
  repeat' split
  all_goals first
    | exact Or.inl (turned_badField _ _)
    | exact Or.inl (turned_refused _ _ _)
    | exact Or.inr (Or.inl ⟨by assumption, rfl⟩)
    | exact Or.inr (Or.inr ⟨by assumption, rfl⟩)

theorem acceptGauging_cases (p : List Byte) (s : State) : Turned (acceptGauging p s) s ∨
    ∃ mean proposal q body, s.run.state = .complete ∧ s.rating.adoption.request = none ∧
      acceptShift s (s.run.id.getD 0) mean proposal = .ok q ∧
      acceptGauging p s = done (q.state.setRun (s.run.accept proposal)) body := by
  unfold acceptGauging acceptProposal
  repeat' split
  all_goals first
    | exact Or.inl (turned_badField _ _)
    | exact Or.inl (turned_refused _ _ _)
    | exact Or.inr ⟨_, _, _, _, by assumption, by simp_all, by assumption, rfl⟩

/-! ### Rules -/

theorem checkRule_ok {old : Option Rule} {a b c d e f g h i : Word} {r : Rule}
    (hr : checkRule old a b c d e f g h i = .ok r) :
    (∀ q, old = some q → q.state = .disarmed) ∧ r.state = .disarmed := by
  unfold checkRule at hr
  split at hr
  · cases hr
  · next ho =>
    refine ⟨fun q hq => by simpa [hq] using ho, ?_⟩
    repeat' split at hr
    all_goals first
      | (cases hr; done)
      | (cases hr; rfl)

theorem defineRule_cases (p : List Byte) (s : State) : Turned (defineRule p s) s ∨
    ∃ k r body, k < Config.rules ∧ (∀ q, s.warning.rules.rule k = some q → q.state = .disarmed) ∧
      r.state = .disarmed ∧ defineRule p s = done (s.setRules (s.warning.rules.put k (some r))) body := by
  unfold defineRule
  repeat' split
  all_goals first
    | exact Or.inl (turned_badField _ _)
    | exact Or.inl (turned_refused _ _ _)
    | exact Or.inr ⟨_, _, _, slotOf_lt (by assumption), (checkRule_ok (by assumption)).1,
        (checkRule_ok (by assumption)).2, rfl⟩

theorem armRule_cases (p : List Byte) (s : State) : Turned (armRule p s) s ∨
    ∃ k r body, k < Config.rules ∧ s.warning.rules.rule k = some r ∧ r.state = .disarmed ∧
      armRule p s = done (s.setRules (s.warning.rules.put k (some r.arm))) body := by
  unfold armRule
  rcases onRuleSlot_cases p s _ with h | ⟨k, hk, h⟩
  · exact Or.inl h
  · rw [h]
    repeat' split
    all_goals first
      | exact Or.inl (turned_refused _ _ _)
      | exact Or.inr ⟨_, _, _, hk, by assumption, Decidable.of_not_not (by assumption), rfl⟩

theorem disarmRule_cases (p : List Byte) (s : State) : Turned (disarmRule p s) s ∨
    ∃ k r body, k < Config.rules ∧ s.warning.rules.rule k = some r ∧ r.state ≠ .disarmed ∧
      disarmRule p s = done (takeRuleOut k r (some r.disarm) s) body := by
  unfold disarmRule
  rcases onRuleSlot_cases p s _ with h | ⟨k, hk, h⟩
  · exact Or.inl h
  · rw [h]
    repeat' split
    all_goals first
      | exact Or.inl (turned_refused _ _ _)
      | exact Or.inr ⟨_, _, _, hk, by assumption, by assumption, rfl⟩

theorem retireRule_cases (p : List Byte) (s : State) : Turned (retireRule p s) s ∨
    ∃ k r body, k < Config.rules ∧ s.warning.rules.rule k = some r ∧
      retireRule p s = done (takeRuleOut k r none s) body := by
  unfold retireRule
  rcases onRuleSlot_cases p s _ with h | ⟨k, hk, h⟩
  · exact Or.inl h
  · rw [h]
    repeat' split
    all_goals first
      | exact Or.inl (turned_refused _ _ _)
      | exact Or.inr ⟨_, _, _, hk, by assumption, rfl⟩

theorem acknowledge_cases (p : List Byte) (s : State) : Turned (acknowledge p s) s ∨
    ∃ k r r' body, k < Config.rules ∧ s.warning.rules.rule k = some r ∧ r.acknowledge = some r' ∧
      acknowledge p s = done (formEffects (s.setRules (s.warning.rules.put k (some r')))) body := by
  unfold acknowledge
  rcases onRuleSlot_cases p s _ with h | ⟨k, hk, h⟩
  · exact Or.inl h
  · rw [h]
    split
    · exact Or.inl (turned_refused _ _ _)
    · next r' h' =>
      rcases hr : s.warning.rules.rule k with _ | r
      · simp [hr] at h'
      · exact Or.inr ⟨_, r, _, _, hk, hr, by simpa [hr] using h', rfl⟩

end Sys2Proof.Machine
end

