-- ==== Sys2Proof/Laws/Exec.lean ====
section
/-! SUPPORT. How a property of states passes through a command: requests by their owners, raw select periods by what
the part judges them to be, and the line and time events one by one. -/

namespace Sys2Proof.Machine

theorem request_ofRequest (r : RequestName) (p : List Byte) : (Instr.ofRequest r p).request = some (r, p) := by
  cases r <;> rfl

/-- R190: a part that is not held in Reset carries its commands out. -/
theorem unlessHeld_running (act : State → State) {s : State} (h : s.resetHeld = false) :
    unlessHeld act s = .next (act s) := by
  rw [unlessHeld, h]
  rfl

/-- R190: a part held in Reset takes nothing. -/
theorem unlessHeld_held (act : State → State) {s : State} (h : s.resetHeld = true) : unlessHeld act s = .next s := by
  rw [unlessHeld, h]
  rfl

/-- R170: outside Reset, a select period that starts after Reset has its effect. -/
theorem onSelectPeriod_running (act : State → State) {s : State} (h : s.resetHeld = false)
    (hi : s.port.ignoring = false) : onSelectPeriod act s = .next (act s) := by
  rw [onSelectPeriod, unlessHeld_running _ h, hi]
  rfl

/-- R184: the select period that was under way when Reset ended is ignored. -/
theorem onSelectPeriod_ignored (act : State → State) {s : State} (h : s.resetHeld = false)
    (hi : s.port.ignoring = true) : onSelectPeriod act s = .next s.periodIgnored := by
  rw [onSelectPeriod, unlessHeld_running _ h, hi]
  rfl

/-- R190: a part held in Reset takes no select period. -/
theorem onSelectPeriod_held (act : State → State) {s : State} (h : s.resetHeld = true) :
    onSelectPeriod act s = .next s :=
  unlessHeld_held _ h

/-- A request command is its frame taken. -/
theorem exec_ofRequest (r : RequestName) (p : List Byte) (s : State) :
    exec (Instr.ofRequest r p) s = onSelectPeriod (takeRequest r.code p (owner r)) s := by
  cases r <;> rfl

theorem exec_request (i : Instr) (r : RequestName) (p : List Byte) (s : State) (h : i.request = some (r, p)) :
    exec i s = onSelectPeriod (takeRequest r.code p (owner r)) s := by
  cases i <;> first
    | (cases h; rfl)
    | cases h

/-- R171 to R173: what taking a request can do. -/
theorem takeRequest_cases (code : Byte) (p : List Byte) (own : List Byte → State → Taken) (s : State) :
    (s.port.slot.isSome = true ∧ takeRequest code p own s = s.undriven.raise .overrun) ∨
    (s.port.slot = none ∧ 128 < p.length ∧
      takeRequest code p own s = s.fillSlot ((Reply.refused .frameError 0).answer code)) ∨
    (s.port.slot = none ∧ p.length ≤ 128 ∧
      takeRequest code p own s = (own p s).state.fillSlot ((own p s).reply.answer code)) := by
  unfold takeRequest
  split
  · exact Or.inl ⟨by assumption, rfl⟩
  · have h : s.port.slot = none := by simp_all
    split
    · exact Or.inr (Or.inl ⟨h, by assumption, rfl⟩)
    · exact Or.inr (Or.inr ⟨h, by omega, rfl⟩)

theorem ofCode_code (r : RequestName) : RequestName.ofCode r.code = some r := by cases r <;> decide

theorem ownerOfCode_code (r : RequestName) : ownerOfCode r.code = owner r := by
  funext p s
  simp [ownerOfCode, ofCode_code]

/-- R170 to R173: a property that high impedance, the slot, Overrun, a fetch and the owners keep is kept by a select
period. -/
theorem selectPeriod_preserves (P : State → Prop) (hundriven : ∀ s, P s → P s.undriven)
    (hslot : ∀ s a, P s → P (s.fillSlot a)) (hraise : ∀ s, P s → P (s.raise .overrun))
    (hfetch : ∀ n s, P s → P (fetchFrame n s))
    (howner : ∀ r p s, s.port.slot = none → P s → P (owner r p s).state)
    (code : Byte) (p : List Byte) (s : State) (h : P s) :
    P (takeRequest code p (ownerOfCode code) s) ∧ ∀ bits, P (selectPeriod bits s) := by
  have htake : ∀ code p, P (takeRequest code p (ownerOfCode code) s) := by
    intro code p
    rcases takeRequest_cases code p (ownerOfCode code) s with ⟨_, e⟩ | ⟨_, _, e⟩ | ⟨hs, _, e⟩ <;> rw [e]
    · exact hraise _ (hundriven s h)
    · exact hslot _ _ h
    · apply hslot
      unfold ownerOfCode
      split
      · exact howner _ _ _ hs h
      · exact h
  refine ⟨htake code p, fun bits => ?_⟩
  unfold selectPeriod
  split
  · exact hundriven s h
  · split
    · exact hundriven s h
    · split
      · exact hfetch _ _ h
      · unfold requestFrame
        split
        · exact hraise _ (hundriven s h)
        · split
          · exact htake _ _
          · exact hslot _ _ h

/-- A property that a command's effect keeps is kept by the command, whether or not the part is held in Reset. -/
theorem of_unlessHeld {P : State → Prop} {act : State → State} {s t : State} (he : unlessHeld act s = .next t)
    (h : P s) (ha : P (act s)) : P t := by
  injection he with he
  rw [← he]
  split
  · exact h
  · exact ha

/-- A property that a select period's effect keeps is kept whether the period is taken or not. -/
theorem of_onSelectPeriod {P : State → Prop} {act : State → State} {s t : State} (he : onSelectPeriod act s = .next t)
    (hignored : ∀ s, P s → P s.periodIgnored) (h : P s) (ha : P (act s)) : P t := by
  refine of_unlessHeld he h ?_
  split
  · exact hignored s h
  · exact ha

/-- A property kept by every part of every command is kept by every command. -/
theorem exec_preserves (P : State → Prop) (hundriven : ∀ s, P s → P s.undriven)
    (hignored : ∀ s, P s → P s.periodIgnored)
    (hslot : ∀ s a, P s → P (s.fillSlot a)) (hraise : ∀ s, P s → P (s.raise .overrun))
    (hfetch : ∀ n s, P s → P (fetchFrame n s))
    (howner : ∀ r p s, s.port.slot = none → P s → P (owner r p s).state)
    (hreset : ∀ pin s, P s → P (takeReset pin s))
    (hquadrature : ∀ i e s, P s → P (quadratureChange i e s)) (hmark : ∀ i e s, P s → P (markEdge i e s))
    (hpulse : ∀ i s, P s → P (frequencyPulse i s)) (hgate : ∀ i s, P s → P (gateCompletion i s))
    (hsettling : ∀ i s, P s → P (settlingTimerExpiry i s)) (hinterval : ∀ s, P s → P (stageIntervalExpiry s))
    (hramp : ∀ s, P s → P (rampExpiry s)) (hadoption : ∀ s, P s → P (adoptionCompletion s))
    (hsecond : ∀ s, P s → P (clockSecond s)) (hboundary : ∀ s, P s → P (deliver (drivePeriodBoundary s)))
    (htraverse : ∀ e s, P s → P (deliver (traverseCountChange e s)))
    (hdepth : ∀ e s, P s → P (deliver (depthCountChange e s)))
    (hcontact : ∀ c v s, P s → P (deliver (contactChange c v s)))
    (hjam : ∀ d s, P s → P (deliver (jamExpiry d s))) (hmeter : ∀ s, P s → P (meterPulse s))
    (hdwell : ∀ s, P s → P (dwellExpiry s)) (hwait : ∀ s, P s → P (waitExpiry s))
    (hphase : ∀ s, P s → P (patternPhaseEnd s))
    (i : Instr) (s t : State) (h : P s) (he : exec i s = .next t) : P t := by
  have hreq : ∀ r p, P (takeRequest r.code p (owner r) s) := fun r p => by
    have := (selectPeriod_preserves P hundriven hslot hraise hfetch howner r.code p s h).1
    rwa [ownerOfCode_code] at this
  have hsel := selectPeriod_preserves P hundriven hslot hraise hfetch howner
  cases i with
  | reset pin => cases he; exact hreset pin s h
  | ignoredSelectPeriod bits => exact of_onSelectPeriod he hignored h ((hsel 0 [] s h).2 bits)
  | frameError bits => exact of_onSelectPeriod he hignored h ((hsel 0 [] s h).2 bits)
  | overrun bits => exact of_onSelectPeriod he hignored h ((hsel 0 [] s h).2 bits)
  | unknownRequest code p => exact of_onSelectPeriod he hignored h ((hsel code p s h).1)
  | fetchFrame n => exact of_onSelectPeriod he hignored h (hfetch n s h)
  | identify p => exact of_onSelectPeriod he hignored h (hreq .identify p)
  | readAttention p => exact of_onSelectPeriod he hignored h (hreq .readAttention p)
  | setAttentionMask p => exact of_onSelectPeriod he hignored h (hreq .setAttentionMask p)
  | setClock p => exact of_onSelectPeriod he hignored h (hreq .setClock p)
  | readClock p => exact of_onSelectPeriod he hignored h (hreq .readClock p)
  | writeSettings p => exact of_onSelectPeriod he hignored h (hreq .writeSettings p)
  | readSettings p => exact of_onSelectPeriod he hignored h (hreq .readSettings p)
  | readStation p => exact of_onSelectPeriod he hignored h (hreq .readStation p)
  | restart p => exact of_onSelectPeriod he hignored h (hreq .restart p)
  | configureChannel p => exact of_onSelectPeriod he hignored h (hreq .configureChannel p)
  | setChannelStage p => exact of_onSelectPeriod he hignored h (hreq .setChannelStage p)
  | readChannel p => exact of_onSelectPeriod he hignored h (hreq .readChannel p)
  | setVote p => exact of_onSelectPeriod he hignored h (hreq .setVote p)
  | setCursor p => exact of_onSelectPeriod he hignored h (hreq .setCursor p)
  | writeFields p => exact of_onSelectPeriod he hignored h (hreq .writeFields p)
  | readEntries p => exact of_onSelectPeriod he hignored h (hreq .readEntries p)
  | retirePoint p => exact of_onSelectPeriod he hignored h (hreq .retirePoint p)
  | copyRating p => exact of_onSelectPeriod he hignored h (hreq .copyRating p)
  | adoptRating p => exact of_onSelectPeriod he hignored h (hreq .adoptRating p)
  | lookup p => exact of_onSelectPeriod he hignored h (hreq .lookup p)
  | defineShift p => exact of_onSelectPeriod he hignored h (hreq .defineShift p)
  | retireShift p => exact of_onSelectPeriod he hignored h (hreq .retireShift p)
  | readShifts p => exact of_onSelectPeriod he hignored h (hreq .readShifts p)
  | retireVertical p => exact of_onSelectPeriod he hignored h (hreq .retireVertical p)
  | homeCarriage p => exact of_onSelectPeriod he hignored h (hreq .homeCarriage p)
  | clearFault p => exact of_onSelectPeriod he hignored h (hreq .clearFault p)
  | setMeter p => exact of_onSelectPeriod he hignored h (hreq .setMeter p)
  | startRun p => exact of_onSelectPeriod he hignored h (hreq .startRun p)
  | abortRun p => exact of_onSelectPeriod he hignored h (hreq .abortRun p)
  | readRun p => exact of_onSelectPeriod he hignored h (hreq .readRun p)
  | acceptGauging p => exact of_onSelectPeriod he hignored h (hreq .acceptGauging p)
  | defineRule p => exact of_onSelectPeriod he hignored h (hreq .defineRule p)
  | armRule p => exact of_onSelectPeriod he hignored h (hreq .armRule p)
  | disarmRule p => exact of_onSelectPeriod he hignored h (hreq .disarmRule p)
  | acknowledge p => exact of_onSelectPeriod he hignored h (hreq .acknowledge p)
  | retireRule p => exact of_onSelectPeriod he hignored h (hreq .retireRule p)
  | readRule p => exact of_onSelectPeriod he hignored h (hreq .readRule p)
  | quadratureChange c e => exact of_unlessHeld he h (hquadrature c e s h)
  | markEdge c e => exact of_unlessHeld he h (hmark c e s h)
  | frequencyPulse c => exact of_unlessHeld he h (hpulse c s h)
  | gateCompletion c => exact of_unlessHeld he h (hgate c s h)
  | settlingTimerExpiry c => exact of_unlessHeld he h (hsettling c s h)
  | stageIntervalExpiry => exact of_unlessHeld he h (hinterval s h)
  | rampExpiry => exact of_unlessHeld he h (hramp s h)
  | adoptionCompletion => exact of_unlessHeld he h (hadoption s h)
  | clockSecond => exact of_unlessHeld he h (hsecond s h)
  | drivePeriodBoundary => exact of_unlessHeld he h (hboundary s h)
  | traverseCountChange e => exact of_unlessHeld he h (htraverse e s h)
  | depthCountChange e => exact of_unlessHeld he h (hdepth e s h)
  | contactChange c v => exact of_unlessHeld he h (hcontact c v s h)
  | jam d => exact of_unlessHeld he h (hjam d s h)
  | meterPulse => exact of_unlessHeld he h (hmeter s h)
  | dwellExpiry => exact of_unlessHeld he h (hdwell s h)
  | waitExpiry => exact of_unlessHeld he h (hwait s h)
  | patternPhaseEnd => exact of_unlessHeld he h (hphase s h)

/-- A property that does not read the queue and that every command keeps is kept by every step. -/
theorem step_preserves (P : State → Prop) (hpending : ∀ s q, P s → P (s.setPending q))
    (hexec : ∀ i s t, P s → exec i s = .next t → P t) (s t : State) (h : P s) (hs : step s = .next t) : P t := by
  unfold step at hs
  split at hs
  · cases hs; exact h
  · exact hexec _ _ _ (hpending _ _ h) hs

end Sys2Proof.Machine
end

