-- ==== Sys2Proof/Laws/Answers.lean ====
section
/-! SUPPORT. Parameter values read back, answers and reasons in the words of the claims, and a request taken into an
empty slot. -/

namespace Sys2Proof.Machine

/-! ### Parameter bytes -/

theorem ofBytes_beWord (w : Word) :
    Word.ofBytes (w.extractLsb' 24 8) (w.extractLsb' 16 8) (w.extractLsb' 8 8) (w.extractLsb' 0 8) = w := by
  unfold Word.ofBytes
  ext i hi
  simp only [BitVec.getElem_append, BitVec.getElem_extractLsb']
  rcases Nat.lt_or_ge i 8 with h | h
  · simp [h]
    rfl
  · rcases Nat.lt_or_ge i 16 with h2 | h2
    · rw [dif_neg (by omega), dif_pos (by omega), ← BitVec.getLsbD_eq_getElem]
      congr 1
      omega
    · rcases Nat.lt_or_ge i 24 with h3 | h3
      · rw [dif_neg (by omega), dif_neg (by omega), dif_pos (by omega), ← BitVec.getLsbD_eq_getElem]
        congr 1
        omega
      · rw [dif_neg (by omega), dif_neg (by omega), dif_neg (by omega), ← BitVec.getLsbD_eq_getElem]
        congr 1
        omega

theorem readWords_cons (w : Word) (bytes : List Byte) :
    readWords (beWord w ++ bytes) = (readWords bytes).map (w :: ·) := by
  unfold beWord
  simp only [List.cons_append, List.nil_append, readWords]
  rw [ofBytes_beWord]

/-- R186: the values a request carries are the values it was given. -/
@[simp] theorem readWords_paramBytes (ws : List Word) : readWords (paramBytes ws) = some ws := by
  induction ws with
  | nil => rfl
  | cons w ws ih =>
    show readWords (beWord w ++ paramBytes ws) = _
    rw [readWords_cons, ih]
    rfl

@[simp] theorem readWords_beWord (w : Word) : readWords (beWord w) = some [w] := by
  have := readWords_cons w []
  rwa [List.append_nil] at this

@[simp] theorem readWords_nil : readWords [] = some [] := rfl

@[simp] theorem beWord_length (w : Word) : (beWord w).length = 4 := rfl

@[simp] theorem paramBytes_length (ws : List Word) : (paramBytes ws).length = 4 * ws.length := by
  induction ws with
  | nil => rfl
  | cons w ws ih =>
    show (beWord w ++ paramBytes ws).length = _
    rw [List.length_append, ih, beWord_length, List.length_cons]
    omega

/-- R186: n values have a length of 4n. -/
theorem readWords_length : ∀ {bytes : List Byte} {ws : List Word}, readWords bytes = some ws → bytes.length = 4 * ws.length
  | [], ws, h => by
    cases h
    rfl
  | a :: b :: c :: d :: rest, ws, h => by
    rw [readWords, Option.map_eq_some_iff] at h
    obtain ⟨vs, hv, rfl⟩ := h
    simp only [List.length_cons, readWords_length hv]
    omega
  | [_], _, h => nomatch h
  | [_, _], _, h => nomatch h
  | [_, _, _], _, h => nomatch h

theorem slotOf_ofNat {n k : Nat} (h : k < n) (hn : n ≤ 2 ^ 31) : slotOf n (BitVec.ofNat 32 k) = some k := by
  have e : (BitVec.ofNat 32 k).toInt = k := by
    rw [BitVec.toInt_ofNat', Int.bmod_def]
    split <;> omega
  unfold slotOf
  rw [e, if_pos ((within_iff _ _ _).mpr ⟨by omega, by omega⟩)]
  rfl

theorem slotOf_none {n : Nat} {w : Word} (h : w.toInt < 0 ∨ (n : Int) - 1 < w.toInt) : slotOf n w = none := by
  unfold slotOf
  rw [if_neg]
  rw [within_iff]
  omega

theorem slotOf_some {n : Nat} {w : Word} (h : 0 ≤ w.toInt) (h' : w.toInt ≤ (n : Int) - 1) :
    slotOf n w = some w.toInt.toNat := by
  unfold slotOf
  rw [if_pos ((within_iff _ _ _).mpr ⟨h, h'⟩)]

theorem channelOf_ofNat (i : ChannelNumber) : channelOf (BitVec.ofNat 32 i.val) = some i := by
  unfold channelOf
  have e : (BitVec.ofNat 32 i.val).toNat = i.val := by
    rw [BitVec.toNat_ofNat]
    exact Nat.mod_eq_of_lt (Nat.lt_trans i.isLt (by decide))
  rw [dif_pos (by rw [e]; exact i.isLt)]
  congr 1
  exact Fin.ext e

theorem toInt_ofInt {v : Int} (h : -2147483648 ≤ v) (h' : v < 2147483648) : (BitVec.ofInt 32 v).toInt = v := by
  rw [BitVec.toInt_ofInt, Int.bmod_def]
  split <;> omega

/-! ### Reasons and answers -/

theorem periodIgnored_eq (s : State) :
    s.periodIgnored = { s with port := { s.port with sdo := .highImpedance, ignoring := false } } := rfl

theorem undriven_eq (s : State) : s.undriven = { s with port := { s.port with sdo := .highImpedance } } := rfl

theorem fillSlot_answered (s : State) (a : Answer) : s.fillSlot a = s.answered a.status a.code a.body := rfl

theorem raise_overrun (s : State) :
    s.raise .overrun = { s with port := { s.port with attention := s.port.attention ||| 0x004 } } := rfl

theorem raise_ratingAdopted (s : State) :
    s.raise .ratingAdopted = { s with port := { s.port with attention := s.port.attention ||| 0x020 } } := rfl

theorem raise_ratingRejected (s : State) :
    s.raise .ratingRejected = { s with port := { s.port with attention := s.port.attention ||| 0x040 } } := rfl

theorem raise_runEnded (s : State) :
    s.raise .runEnded = { s with port := { s.port with attention := s.port.attention ||| 0x400 } } := rfl

theorem raise_carriageFault (s : State) :
    s.raise .carriageFault = { s with port := { s.port with attention := s.port.attention ||| 0x800 } } := rfl

/-- R12: the record put back with its reason is the claims' `withChannel`. -/
theorem putChannel_withChannel (s : State) (i : ChannelNumber) (c : Channel) : s.putChannel i c = s.withChannel i c := by
  unfold State.putChannel State.withChannel State.raiseIf State.channel
  by_cases h : c.condition = (s.channels.get i).condition
  · rw [if_pos h, if_neg (by simp [h])]
    rfl
  · rw [if_neg h, if_pos (by simpa using h)]
    rfl

/-- R42, R56: a draft change is the claims' `withDraft`. -/
theorem draftChange_withDraft (d : List Point) (s : State) : draftChange d s = s.withDraft d := by
  unfold draftChange State.withDraft
  split
  · next h => rw [if_pos h]; rfl
  · next h => rw [if_neg (by rw [h]; exact fun k => by cases k)]; rfl

/-- R173: a request taken into an empty slot. -/
theorem takeRequest_empty (code : Byte) (p : List Byte) (own : List Byte → State → Taken) (s : State)
    (hs : s.port.slot = none) (hp : p.length ≤ 128) :
    takeRequest code p own s = (own p s).state.fillSlot ((own p s).reply.answer code) := by
  unfold takeRequest
  rw [hs, if_neg (by decide), if_neg (by omega)]

/-- R173, R184, R190: a request command of a part that is not held in Reset and ignores no select period, taken into an
empty slot. -/
theorem exec_request_empty (i : Instr) (r : RequestName) (p : List Byte) (s : State) (hi : i.request = some (r, p))
    (hh : s.resetHeld = false) (hg : s.port.ignoring = false) (hs : s.port.slot = none) (hp : p.length ≤ 128) :
    exec i s = .next ((owner r p s).state.fillSlot ((owner r p s).reply.answer r.code)) := by
  rw [exec_request i r p s hi, onSelectPeriod_running _ hh hg, takeRequest_empty _ _ _ _ hs hp]

end Sys2Proof.Machine
end

