-- ==== Sys2Proof/Laws/PerInstr.lean ====
section
/-! SUPPORT. What holds of every command as a term: a well-formed request command carries at most 128 parameter
bytes (R185). One lemma per constructor of Instr. -/

namespace Sys2Proof.Laws.RequestShape

open Sys2Proof Sys2Proof.Machine

/-- A well-formed command that makes a request carries at most 128 parameter bytes. -/
def Statement (i : Instr) : Prop :=
  ∀ r params, i.request = some (r, params) → i.wellFormed = true → params.length ≤ 128

/-- A command that makes no request meets the statement. -/
theorem of_no_request (i : Instr) (h : i.request = none) : Statement i := by
  intro r params h'
  rw [h] at h'
  cases h'

/-- A request command meets the statement when its check is the length of its parameters. -/
theorem of_length (i : Instr) (r : RequestName) (p : List Byte) (h : i.request = some (r, p))
    (hw : i.wellFormed = decide (p.length ≤ 128)) : Statement i := by
  intro r' p' h' w
  rw [h] at h'
  cases h'
  rw [hw] at w
  exact of_decide_eq_true w

theorem reset (pin : ResetPin) : Statement (.reset pin) := of_no_request _ rfl
theorem ignoredSelectPeriod (bits : List Bool) : Statement (.ignoredSelectPeriod bits) := of_no_request _ rfl
theorem frameError (bits : List Bool) : Statement (.frameError bits) := of_no_request _ rfl
theorem overrun (bits : List Bool) : Statement (.overrun bits) := of_no_request _ rfl
theorem unknownRequest (code : Byte) (params : List Byte) : Statement (.unknownRequest code params) := of_no_request _ rfl
theorem fetchFrame (clocked : Nat) : Statement (.fetchFrame clocked) := of_no_request _ rfl
theorem identify (params : List Byte) : Statement (.identify params) := of_length _ .identify params rfl rfl
theorem readAttention (params : List Byte) : Statement (.readAttention params) := of_length _ .readAttention params rfl rfl
theorem setAttentionMask (params : List Byte) : Statement (.setAttentionMask params) := of_length _ .setAttentionMask params rfl rfl
theorem setClock (params : List Byte) : Statement (.setClock params) := of_length _ .setClock params rfl rfl
theorem readClock (params : List Byte) : Statement (.readClock params) := of_length _ .readClock params rfl rfl
theorem writeSettings (params : List Byte) : Statement (.writeSettings params) := of_length _ .writeSettings params rfl rfl
theorem readSettings (params : List Byte) : Statement (.readSettings params) := of_length _ .readSettings params rfl rfl
theorem readStation (params : List Byte) : Statement (.readStation params) := of_length _ .readStation params rfl rfl
theorem restart (params : List Byte) : Statement (.restart params) := of_length _ .restart params rfl rfl
theorem configureChannel (params : List Byte) : Statement (.configureChannel params) := of_length _ .configureChannel params rfl rfl
theorem setChannelStage (params : List Byte) : Statement (.setChannelStage params) := of_length _ .setChannelStage params rfl rfl
theorem readChannel (params : List Byte) : Statement (.readChannel params) := of_length _ .readChannel params rfl rfl
theorem setVote (params : List Byte) : Statement (.setVote params) := of_length _ .setVote params rfl rfl
theorem setCursor (params : List Byte) : Statement (.setCursor params) := of_length _ .setCursor params rfl rfl
theorem writeFields (params : List Byte) : Statement (.writeFields params) := of_length _ .writeFields params rfl rfl
theorem readEntries (params : List Byte) : Statement (.readEntries params) := of_length _ .readEntries params rfl rfl
theorem retirePoint (params : List Byte) : Statement (.retirePoint params) := of_length _ .retirePoint params rfl rfl
theorem copyRating (params : List Byte) : Statement (.copyRating params) := of_length _ .copyRating params rfl rfl
theorem adoptRating (params : List Byte) : Statement (.adoptRating params) := of_length _ .adoptRating params rfl rfl
theorem lookup (params : List Byte) : Statement (.lookup params) := of_length _ .lookup params rfl rfl
theorem defineShift (params : List Byte) : Statement (.defineShift params) := of_length _ .defineShift params rfl rfl
theorem retireShift (params : List Byte) : Statement (.retireShift params) := of_length _ .retireShift params rfl rfl
theorem readShifts (params : List Byte) : Statement (.readShifts params) := of_length _ .readShifts params rfl rfl
theorem retireVertical (params : List Byte) : Statement (.retireVertical params) := of_length _ .retireVertical params rfl rfl
theorem homeCarriage (params : List Byte) : Statement (.homeCarriage params) := of_length _ .homeCarriage params rfl rfl
theorem clearFault (params : List Byte) : Statement (.clearFault params) := of_length _ .clearFault params rfl rfl
theorem setMeter (params : List Byte) : Statement (.setMeter params) := of_length _ .setMeter params rfl rfl
theorem startRun (params : List Byte) : Statement (.startRun params) := of_length _ .startRun params rfl rfl
theorem abortRun (params : List Byte) : Statement (.abortRun params) := of_length _ .abortRun params rfl rfl
theorem readRun (params : List Byte) : Statement (.readRun params) := of_length _ .readRun params rfl rfl
theorem acceptGauging (params : List Byte) : Statement (.acceptGauging params) := of_length _ .acceptGauging params rfl rfl
theorem defineRule (params : List Byte) : Statement (.defineRule params) := of_length _ .defineRule params rfl rfl
theorem armRule (params : List Byte) : Statement (.armRule params) := of_length _ .armRule params rfl rfl
theorem disarmRule (params : List Byte) : Statement (.disarmRule params) := of_length _ .disarmRule params rfl rfl
theorem acknowledge (params : List Byte) : Statement (.acknowledge params) := of_length _ .acknowledge params rfl rfl
theorem retireRule (params : List Byte) : Statement (.retireRule params) := of_length _ .retireRule params rfl rfl
theorem readRule (params : List Byte) : Statement (.readRule params) := of_length _ .readRule params rfl rfl
theorem quadratureChange (channel : ChannelNumber) (edge : QuadratureEdge) : Statement (.quadratureChange channel edge) := of_no_request _ rfl
theorem markEdge (channel : ChannelNumber) (edge : Edge) : Statement (.markEdge channel edge) := of_no_request _ rfl
theorem frequencyPulse (channel : ChannelNumber) : Statement (.frequencyPulse channel) := of_no_request _ rfl
theorem gateCompletion (channel : ChannelNumber) : Statement (.gateCompletion channel) := of_no_request _ rfl
theorem settlingTimerExpiry (channel : ChannelNumber) : Statement (.settlingTimerExpiry channel) := of_no_request _ rfl
theorem stageIntervalExpiry : Statement .stageIntervalExpiry := of_no_request _ rfl
theorem rampExpiry : Statement .rampExpiry := of_no_request _ rfl
theorem adoptionCompletion : Statement .adoptionCompletion := of_no_request _ rfl
theorem clockSecond : Statement .clockSecond := of_no_request _ rfl
theorem drivePeriodBoundary : Statement .drivePeriodBoundary := of_no_request _ rfl
theorem traverseCountChange (edge : QuadratureEdge) : Statement (.traverseCountChange edge) := of_no_request _ rfl
theorem depthCountChange (edge : QuadratureEdge) : Statement (.depthCountChange edge) := of_no_request _ rfl
theorem contactChange (contact : Contact) (level : Level) : Statement (.contactChange contact level) := of_no_request _ rfl
theorem jam (drive : DriveName) : Statement (.jam drive) := of_no_request _ rfl
theorem meterPulse : Statement .meterPulse := of_no_request _ rfl
theorem dwellExpiry : Statement .dwellExpiry := of_no_request _ rfl
theorem waitExpiry : Statement .waitExpiry := of_no_request _ rfl
theorem patternPhaseEnd : Statement .patternPhaseEnd := of_no_request _ rfl

end Sys2Proof.Laws.RequestShape
end

