-- ==== Sys2Proof/Laws/Warnings.lean ====
section
/-! SUPPORT. What forming the effect set, an evaluation, a publication and a settings write leave: `SpreadFrame` is
`CableFrame` up to the Warning Unit and the count of free values. -/

namespace Sys2Proof.Machine

/-- `CableFrame` from a state whose Warning Unit and count of free values may have changed first. -/
def SpreadFrame (s t : State) : Prop := ∃ w n, CableFrame ((s.setWarning w).setFreeReads n) t

theorem CableFrame.lift {s t : State} (h : CableFrame s t) (w : WarningUnit) (n : Nat) :
    CableFrame ((s.setWarning w).setFreeReads n) ((t.setWarning w).setFreeReads n) :=
  { h with warning := rfl, freeReads := rfl }

theorem CableFrame.spread {s t : State} (h : CableFrame s t) : SpreadFrame s t := ⟨s.warning, s.freeReads, h⟩

theorem SpreadFrame.refl (s : State) : SpreadFrame s s := (CableFrame.refl s).spread

theorem SpreadFrame.trans {s t u : State} (h : SpreadFrame s t) (k : SpreadFrame t u) : SpreadFrame s u := by
  obtain ⟨w, n, h⟩ := h
  obtain ⟨w', n', k⟩ := k
  exact ⟨w', n', (h.lift w' n').trans k⟩

theorem SpreadFrame.of_warning (s : State) (w : WarningUnit) : SpreadFrame s (s.setWarning w) :=
  ⟨w, s.freeReads, CableFrame.refl _⟩

theorem SpreadFrame.of_freeReads (s : State) (n : Nat) : SpreadFrame s (s.setFreeReads n) :=
  ⟨s.warning, n, CableFrame.refl _⟩

theorem raiseIf_frame (s : State) (b : Bool) (r : Reason) (h : r ≠ .answerReady) : CableFrame s (s.raiseIf b r) := by
  cases b
  · exact CableFrame.refl s
  · exact CableFrame.of_raise s r h

/-! ### Allowed orders -/

/-- One of the outcomes is taken. -/
theorem chooseOutcome_mem (n : Nat) (first : State) (others : List State) :
    chooseOutcome n first others = first ∨ chooseOutcome n first others ∈ others := by
  unfold chooseOutcome
  split
  · exact Or.inl rfl
  · generalize Config.order n % (others.length + 1) = k
    cases k with
    | zero => exact Or.inl rfl
    | succ k =>
      rw [List.getD_cons_succ, List.getD_eq_getElem?_getD]
      rcases h : others[k]? with _ | o
      · exact Or.inl rfl
      · exact Or.inr (List.mem_of_getElem? h)

/-- What holds of every outcome holds of the one taken. -/
theorem chooseOutcome_of_all {P : State → Prop} (n : Nat) (first : State) (others : List State) (h : P first)
    (h' : ∀ o ∈ others, P o) : P (chooseOutcome n first others) := by
  rcases chooseOutcome_mem n first others with e | e
  · rwa [e]
  · exact h' _ e

/-- Where all outcomes agree there is no choice. -/
theorem chooseOutcome_of_agree (n : Nat) (first : State) (others : List State) (h : ∀ o ∈ others, o = first) :
    chooseOutcome n first others = first := by
  unfold chooseOutcome
  rw [if_pos]
  simpa using h

/-! ### The effect set and the evaluation -/

/-- R158 to R165: the set is formed, and what takes it up keeps all but the cableway and the run. -/
theorem formEffects_frame (s : State) : CableFrame (s.setWarning s.warning.form) (formEffects s) := by
  unfold formEffects
  dsimp only
  split
  · exact inhibitEnters_frame _
  · split
    · exact startIfReady_frame _
    · exact CableFrame.refl _

theorem formEffects_spread (s : State) : SpreadFrame s (formEffects s) :=
  (SpreadFrame.of_warning s _).trans (formEffects_frame s).spread

/-- R158: forming the effect set leaves the Warning Unit formed from its rules. -/
theorem formEffects_warning (s : State) : (formEffects s).warning = s.warning.form := (formEffects_frame s).warning

/-- R161: a forming that changes the winning pattern starts it at the beginning of its On phase, or stops the
generator; one that leaves it leaves the phase and the time in it. -/
theorem form_phase (w : WarningUnit) :
    (w.form.winning ≠ w.winning → w.form.phase = firstPhase w.form.winning ∧ w.form.phaseElapsed = 0) ∧
    (w.form.winning = w.winning → w.form.phase = w.phase ∧ w.form.phaseElapsed = w.phaseElapsed) :=
  ⟨fun h => ⟨if_neg h, if_neg h⟩, fun h => ⟨if_pos h, if_pos h⟩⟩

theorem setRules_spread (s : State) (t : RuleTable) : SpreadFrame s (s.setRules t) := SpreadFrame.of_warning s _

theorem evaluate_spread (s : State) : SpreadFrame s (evaluate s) :=
  (((setRules_spread s _).trans (raiseIf_frame _ _ _ (by decide)).spread).trans
    (raiseIf_frame _ _ _ (by decide)).spread).trans (formEffects_spread _)

/-- R148: an evaluation leaves the rules that `evaluateRules` gives, with the effect set formed from them. -/
theorem evaluate_warning (s : State) :
    (evaluate s).warning = WarningUnit.form { s.warning with rules := evaluateRules s } := by
  unfold evaluate
  rw [formEffects_warning]
  simp [State.setRules]

theorem takeRuleOut_spread (k : Nat) (r : Rule) (after : Option Rule) (s : State) :
    SpreadFrame s (takeRuleOut k r after s) :=
  ((setRules_spread s _).trans (raiseIf_frame _ _ _ (by decide)).spread).trans (formEffects_spread _)

theorem takeRuleOut_warning (k : Nat) (r : Rule) (after : Option Rule) (s : State) :
    (takeRuleOut k r after s).warning = WarningUnit.form { s.warning with rules := s.warning.rules.put k after } := by
  unfold takeRuleOut
  rw [formEffects_warning]
  simp [State.setRules]

end Sys2Proof.Machine
end

