-- ==== Sys2Proof/Laws/Publication.lean ====
section
/-! SUPPORT. What a settlement, a publication and a settings write leave, and the fields of a settlement's state. -/

namespace Sys2Proof.Machine

theorem consumePublication_spread (s : State) : SpreadFrame s (consumePublication s) := by
  refine (SpreadFrame.of_freeReads s (s.freeReads + 1)).trans ?_
  unfold consumePublication
  dsimp only
  apply chooseOutcome_of_all (P := SpreadFrame (s.setFreeReads (s.freeReads + 1)))
  · exact (gaugingTakesPublication_frame _).spread.trans (evaluate_spread _)
  · intro o ho
    rw [List.mem_singleton.mp ho]
    exact (evaluate_spread _).trans (gaugingTakesPublication_frame _).spread

/-- The Gauging Unit's part of a publication reads and leaves the rules as the Warning Unit's part finds them. -/
theorem evaluateRules_frame {s t : State} (h : CableFrame s t) : evaluateRules t = evaluateRules s := by
  unfold evaluateRules State.recordDischarge forwardLookup
  rw [h.warning, h.stage, h.rating]

/-- R148: whatever the order of the consumers, the Warning Unit is left as one evaluation leaves it. -/
theorem consumePublication_warning (s : State) :
    (consumePublication s).warning = WarningUnit.form { s.warning with rules := evaluateRules s } := by
  have key : ∀ n, (evaluate (s.setFreeReads n)).warning = WarningUnit.form { s.warning with rules := evaluateRules s } :=
    fun n => evaluate_warning _
  unfold consumePublication
  dsimp only
  apply chooseOutcome_of_all
    (P := fun o => o.warning = WarningUnit.form { s.warning with rules := evaluateRules s })
  · have h := gaugingTakesPublication_frame (s.setFreeReads (s.freeReads + 1))
    rw [evaluate_warning, h.warning, evaluateRules_frame h]
    rfl
  · intro o ho
    rw [List.mem_singleton.mp ho, (gaugingTakesPublication_frame _).warning]
    exact key _

/-! ### A settlement -/

theorem setVotes_frame (s : State) (v : Vector VoteRecord Config.channels) :
    ∃ b, CableFrame (s.setStage b) (s.setVotes v) :=
  ⟨_, raiseIf_frame _ _ _ (by decide)⟩

theorem CableFrame.lift_stage {s t : State} (h : CableFrame s t) (b : StageBlock) :
    CableFrame (s.setStage b) (t.setStage b) :=
  { h with stage := rfl }

/-- A settlement changes the stage block and raises reasons, and nothing else. -/
theorem settle_frame (ended : StageInterval) (s : State) : CableFrame (s.setStage (settle ended s).stage) (settle ended s) := by
  have step : ∀ a c : State, (∃ b, CableFrame (a.setStage b) c) → CableFrame (a.setStage c.stage) c := by
    rintro a c ⟨b, h⟩
    exact { h with stage := rfl }
  have comp : ∀ a c d : State, (∃ b, CableFrame (a.setStage b) c) → (∃ b, CableFrame (c.setStage b) d) →
      ∃ b, CableFrame (a.setStage b) d := by
    rintro a c d ⟨b, h⟩ ⟨b', h'⟩
    exact ⟨b', (h.lift_stage b').trans h'⟩
  apply step
  unfold settle publish takeVote
  dsimp only
  refine comp _ _ _ (comp _ (replaceSetup s) _ ?_ (setVotes_frame _ _)) ⟨_, raiseIf_frame _ _ _ (by decide)⟩
  unfold replaceSetup
  split
  · exact ⟨s.stage, CableFrame.refl s⟩
  · exact comp _ _ _ (setVotes_frame _ _) ⟨_, CableFrame.refl _⟩

theorem takeVote_frame (s : State) : CableFrame (s.setStage (takeVote s).stage) (takeVote s) := by
  have h2 : ∃ b, CableFrame (s.setStage b) (replaceSetup s) := by
    unfold replaceSetup
    split
    · exact ⟨s.stage, CableFrame.refl s⟩
    · obtain ⟨b, h⟩ := setVotes_frame s _
      exact ⟨_, h.lift_stage _⟩
  obtain ⟨b', h2⟩ := h2
  obtain ⟨b, h1⟩ := setVotes_frame (replaceSetup s) (Vector.ofFn (replaceSetup s).settledVote)
  have h := (h2.lift_stage b).trans h1
  rw [show (takeVote s).stage = b from h1.stage]
  exact h

theorem publish_stage (e : StageInterval) (s : State) :
    (publish e s).stage =
      { s.stage with record := newRecord s (chooseStage s) e, heldCount := (chooseStage s).held } := by
  unfold publish State.raiseIf
  dsimp only
  split <;> rfl

theorem setVotes_stage (s : State) (v : Vector VoteRecord Config.channels) :
    (s.setVotes v).stage = { s.stage with votes := v } := by
  unfold State.setVotes State.raiseIf
  split <;> rfl

/-- R25: the setup in force after the replacement, and what the replacement leaves of the block. -/
theorem replaceSetup_stage (s : State) :
    (replaceSetup s).stage = { (replaceSetup s).stage with
      setup := s.stage.pendingSetup.getD s.stage.setup, pendingSetup := none, record := s.stage.record,
      heldCount := s.stage.heldCount, interval := s.stage.interval } := by
  unfold replaceSetup
  split
  · next h =>
    rw [h, Option.getD_none]
    rcases hb : s.stage with ⟨_, _, _, _, _, _⟩
    rw [hb] at h
    simp_all
  · next u h => rw [h]; simp [setVotes_stage]

/-- R25: the record a channel starts a settlement from. -/
theorem replaceSetup_vote (s : State) (i : ChannelNumber) :
    (replaceSetup s).vote i =
      if (s.stage.pendingSetup.getD s.stage.setup).role i = s.stage.setup.role i then s.vote i
      else VoteRecord.fresh ((s.stage.pendingSetup.getD s.stage.setup).role i) := by
  unfold replaceSetup State.vote
  split
  · next h => rw [h, Option.getD_none, if_pos rfl]
  · next u h =>
    rw [h, Option.getD_some, setStage_stage, setVotes_stage]
    show (votesUnderSetup s.stage.votes s.stage.setup u)[i.val] = _
    unfold votesUnderSetup
    rw [Vector.getElem_ofFn]
    by_cases e : s.stage.setup.role i = u.role i
    · rw [if_pos e, if_pos e.symm]
    · rw [if_neg e, if_neg (Ne.symm e)]

/-- The block after the vote of a settlement: the votes are those of `settledVote` under the new setup. -/
theorem takeVote_stage (s : State) :
    (takeVote s).stage = { s.stage with
      setup := s.stage.pendingSetup.getD s.stage.setup, pendingSetup := none,
      votes := Vector.ofFn (replaceSetup s).settledVote } := by
  unfold takeVote
  rw [setVotes_stage, replaceSetup_stage]

theorem setStage_setStage (s : State) (a b : StageBlock) : (s.setStage a).setStage b = s.setStage b := rfl

/-- The expiry of the stage interval changes the stage block, the Warning Unit and what `CableFrame` lets change. -/
theorem stageIntervalExpiry_spread (s : State) :
    SpreadFrame (s.setStage (stageIntervalExpiry s).stage) (stageIntervalExpiry s) := by
  unfold stageIntervalExpiry
  have h := settle_frame s.stage.interval (s.setStage { s.stage with interval := nextInterval s })
  rw [setStage_setStage] at h
  revert h
  generalize settle s.stage.interval (s.setStage { s.stage with interval := nextInterval s }) = u
  intro h
  have k := consumePublication_spread u
  have e : (consumePublication u).stage = u.stage := by
    obtain ⟨w, n, k⟩ := k
    exact k.stage
  rw [e]
  exact h.spread.trans k

/-- The stage block at the end of an interval is the one the settlement leaves. -/
theorem stageIntervalExpiry_stage (s : State) :
    (stageIntervalExpiry s).stage =
      (settle s.stage.interval (s.setStage { s.stage with interval := nextInterval s })).stage := by
  unfold stageIntervalExpiry
  generalize settle s.stage.interval (s.setStage { s.stage with interval := nextInterval s }) = u
  obtain ⟨w, n, k⟩ := consumePublication_spread u
  exact k.stage

/-- R27: the record of a channel at the end of an interval, under the setup that comes into force with it. -/
theorem stageIntervalExpiry_vote (s : State) (i : ChannelNumber) :
    (stageIntervalExpiry s).vote i =
      (replaceSetup (s.setStage { s.stage with interval := nextInterval s })).settledVote i := by
  unfold State.vote
  rw [stageIntervalExpiry_stage]
  unfold settle
  rw [publish_stage, takeVote_stage]
  show (Vector.ofFn _)[i.val] = _
  simp

/-- R148: the rules at the end of an interval are evaluated on the new record. -/
theorem stageIntervalExpiry_warning (s : State) :
    (stageIntervalExpiry s).warning =
      WarningUnit.form { s.warning with
        rules := evaluateRules (settle s.stage.interval (s.setStage { s.stage with interval := nextInterval s })) } := by
  have h := settle_frame s.stage.interval (s.setStage { s.stage with interval := nextInterval s })
  unfold stageIntervalExpiry
  revert h
  generalize settle s.stage.interval (s.setStage { s.stage with interval := nextInterval s }) = u
  intro h
  rw [consumePublication_warning, h.warning]
  rfl

/-! ### A settings write -/

theorem whenChanged_frame (xs : List Setting) (t t' : Settings) (f : State → State)
    (h : ∀ s, CableFrame s (f s)) (s : State) : CableFrame s (whenChanged xs t t' f s) := by
  unfold whenChanged
  split
  · exact h s
  · exact CableFrame.refl s

theorem inTurn_frame (fs : List (State → State)) (h : ∀ f ∈ fs, ∀ s, CableFrame s (f s)) (s : State) :
    CableFrame s (inTurn fs s) := by
  induction fs generalizing s with
  | nil => exact CableFrame.refl s
  | cons f fs ih =>
    exact (h f (by simp) s).trans (ih (fun g hg => h g (by simp [hg])) _)

theorem retestCable_frame (before : Settings) (s : State) :
    CableFrame (s.setFreeReads (s.freeReads + 1)) (retestCable before s) := by
  have hj : ∀ t, CableFrame t (deliver (jamTest t)) := fun t => CableFrame.after (deliver_frame _) (jamTest_frame t)
  have hn : ∀ t, CableFrame t (deliver (snagTest t)) := fun t => CableFrame.after (deliver_frame _) (snagTest_frame t)
  have hc : ∀ t, CableFrame t (deliver (contactTests t)) :=
    fun t => CableFrame.after (deliver_frame _) (contactTests_frame t)
  unfold retestCable
  dsimp only
  apply chooseOutcome_of_all (P := CableFrame (s.setFreeReads (s.freeReads + 1)))
  · apply inTurn_frame
    intro f hf
    simp only [List.mem_cons, List.not_mem_nil, or_false] at hf
    rcases hf with rfl | rfl | rfl <;> exact whenChanged_frame _ _ _ _ (by assumption)
  · intro o ho
    simp only [List.mem_cons, List.not_mem_nil, or_false] at ho
    rcases ho with rfl | rfl | rfl | rfl | rfl <;>
    · apply inTurn_frame
      intro f hf
      simp only [List.mem_cons, List.not_mem_nil, or_false] at hf
      rcases hf with rfl | rfl | rfl <;> exact whenChanged_frame _ _ _ _ (by assumption)

/-- R11: a retest changes the channels and raises ChannelChanged, and nothing else. -/
theorem retestChannels_frame (s : State) :
    CableFrame (s.setChannels (retestChannels s).channels) (retestChannels s) := by
  have : (retestChannels s).channels = Vector.ofFn fun i => (s.channel i).retest s := by
    unfold retestChannels
    simp
  rw [this]
  exact raiseIf_frame _ _ _ (by decide)

end Sys2Proof.Machine
end

