-- ==== Sys2Proof/Laws/Runs.lean ====
section
/-! SUPPORT. What the movements a run asks for do when they are taken, and how a run starts: the Measure verticals
counted and the first of them found, what the start of a run that may depart leaves, and what RESTART leaves of a run. -/

namespace Sys2Proof.Machine

/-! ### Movements taken, and results handed over -/

theorem deliver_going (s : State) : deliver (going s) = s := rfl

/-- A result is taken, and what it asks for is handed over in turn. -/
theorem deliver_some (s : State) (r : MoveResult) :
    deliver { state := s, result := some r } =
      (match (takeResult r s).result with
        | none => (takeResult r s).state
        | some q => drain (4 * s.gauging.visit.length + 7) q (takeResult r s).state) := rfl

/-- R103: a raise to the top taken with Top released. -/
theorem takeRaiseToTop_raises {s : State} (hc : s.cable.state = .holding) (ha : s.cable.activity = .idle)
    (ht : s.asserted .top = false) :
    takeMovement .raiseToTop s = going (s.setCable { s.cable.runHoist .up with
      state := .raising, activity := .moving .raiseToTop }) := by
  unfold takeMovement
  rw [ha, if_neg (by simp), hc]
  show takeRaiseToTop s = _
  unfold takeRaiseToTop hoistTests
  dsimp only [setCable_cable]
  rw [if_neg]
  intro h
  have : s.asserted .top = true := h
  rw [ht] at this; cases this

/-- The levels and the settings alone say whether a contact is asserted. -/
theorem asserted_congr {s t : State} (c : Contact) (hc : t.cable.contacts = s.cable.contacts)
    (hs : t.settings = s.settings) : t.asserted c = s.asserted c := by
  unfold State.asserted State.setting
  rw [hc, hs]

theorem searchCounts_congr {s t : State} (hs : t.settings = s.settings) : t.searchCounts = s.searchCounts := by
  unfold State.searchCounts State.setting
  rw [hs]

theorem inhibited_congr {s t : State} (hw : t.warning = s.warning) : t.inhibited = s.inhibited := by
  unfold State.inhibited
  rw [hw]

/-- R103: a raise to the top taken with Top asserted ends at once. -/
theorem takeRaiseToTop_atTop {s : State} (hc : s.cable.state = .holding) (ha : s.cable.activity = .idle)
    (ht : s.asserted .top = true) :
    takeMovement .raiseToTop s = endMovement (s.setCable { s.cable.runHoist .up with
      state := .raising, activity := .moving .raiseToTop }) .holding .atTop := by
  unfold takeMovement
  rw [ha, if_neg (by simp), hc]
  show takeRaiseToTop s = _
  unfold takeRaiseToTop hoistTests
  dsimp only [setCable_cable]
  rw [if_pos]
  exact ht

/-- R103: a raise to a depth above the weight's. -/
theorem takeRaiseTo_raises {s : State} {target : Int} (hc : s.cable.state = .holding) (ha : s.cable.activity = .idle)
    (hd : target < s.depth) :
    takeMovement (.raiseTo target) s = going (s.setCable { s.cable.runHoist .up with
      state := .raising, activity := .moving (.raiseTo target) }) := by
  unfold takeMovement
  rw [ha, if_neg (by simp), hc]
  show takeRaiseTo target s = _
  unfold takeRaiseTo hoistTests
  dsimp only [setCable_cable]
  rw [if_neg]
  intro h
  have : s.depth ≤ target := h
  omega

/-- R103: a raise to a depth the weight is already at or above ends at once. -/
theorem takeRaiseTo_reached {s : State} {target : Int} (hc : s.cable.state = .holding) (ha : s.cable.activity = .idle)
    (hd : s.depth ≤ target) :
    takeMovement (.raiseTo target) s = endMovement (s.setCable { s.cable.runHoist .up with
      state := .raising, activity := .moving (.raiseTo target) }) .holding .reached := by
  unfold takeMovement
  rw [ha, if_neg (by simp), hc]
  show takeRaiseTo target s = _
  unfold takeRaiseTo hoistTests
  dsimp only [setCable_cable]
  rw [if_pos]
  exact hd

/-- R102: a lowering taken with the weight in the air. -/
theorem takeLowerTo_lowers {s : State} {target : Int} {stop : Bool} (hc : s.cable.state = .holding)
    (ha : s.cable.activity = .idle) (hi : s.inhibited = false) (hw : s.asserted .surface = false)
    (hb : s.asserted .bottom = false) (hn : 0 < s.searchCounts) :
    takeMovement (.lowerTo target stop) s = going (s.setCable { s.cable.runHoist .down with
      state := .lowering, activity := .moving (.lowerTo target stop s.cable.depthCount false) }) := by
  unfold takeMovement
  rw [ha, if_neg (by simp), hc]
  show takeLowerTo target stop s = _
  unfold takeLowerTo
  rw [if_neg (by rw [hi]; decide), hw]
  dsimp only
  unfold hoistTests
  simp only [setCable_cable, Bool.false_eq_true, if_false]
  rw [if_neg, if_neg]
  · rfl
  · show ¬ s.searchCounts ≤ (s.cable.depthCount - s.cable.depthCount).toInt
    rw [BitVec.sub_self]
    show ¬ _ ≤ 0
    omega
  · intro h
    have : s.asserted .bottom = true := h
    rw [hb] at this; cases this

/-- R101: a way home taken with Top asserted and the carriage away from Home. -/
theorem takeGoHome_travels {s : State} (hc : s.cable.state = .holding) (ha : s.cable.activity = .idle)
    (ht : s.asserted .top = true) (hh : s.asserted .home = false) :
    takeMovement .goHome s = going (s.setCable { s.cable.runTraverse .inward with
      state := .traversing, activity := .moving .goHome, slow := s.nearTarget (s.setting .homeOffset),
      recovering := false }) := by
  unfold takeMovement
  rw [ha, if_neg (by simp), hc]
  show takeGoHome s = _
  unfold takeGoHome travel
  rw [if_neg (by rw [hh, hc]; simp), if_pos (by exact ht)]
  rfl

/-- R119: the last entry changed. -/
theorem updateEntry_last {s : State} {es : List Entry} {e : Entry} (f : Entry → Entry)
    (h : s.gauging.run.results = es ++ [e]) :
    s.updateEntry f = s.setRun { s.run with results := es ++ [f e] } := by
  unfold State.updateEntry State.run
  rw [h]
  have : ∀ l : List Entry, updateLast f (l ++ [e]) = l ++ [f e] := by
    intro l
    induction l with
    | nil => rfl
    | cons y l ih =>
      cases l with
      | nil => rfl
      | cons z l => simpa [updateLast] using ih
  rw [this]

/-- R125, R128: a weight in the water is stowed. -/
theorem stow_raises {s : State} (hc : s.cable.state = .holding) (ha : s.cable.activity = .idle)
    (ht : s.asserted .top = false) :
    stow s = going ((s.setStep .stow).setCable { s.cable.runHoist .up with
      state := .raising, activity := .moving .raiseToTop }) := by
  unfold stow ask
  rw [takeRaiseToTop_raises (s := s.setStep .stow) hc ha ht]
  rfl

/-- R124: an arrival at a vertical with a stage record that has a stage. -/
theorem arrival_with {s : State} {i : Nat} {v : Vertical} {stage : Int} (hq : s.stage.record.quality ≠ .none)
    (hs : s.stage.record.stage = some stage) (hc : s.run.current = some i) (hv : s.verticals[i]? = some v) :
    arrival s = arriveWith i v stage s := by
  unfold arrival
  cases h : s.stage.record.quality
  all_goals first
    | exact absurd h hq
    | (rw [hs, hc]; dsimp only; rw [hv])

/-- R125, R126: the end of a lowering is taken whatever the step of the Running run. -/
theorem takeResult_lowered {s : State} (h : s.gauging.run.state = .running) (how : LowerEnd) (stop : Bool) :
    takeResult (.lowered how stop) s = lowerResult how stop s := by
  unfold takeResult
  rw [show s.run.state = .running from h]

/-- R87: a sounding changes the section table alone. -/
theorem takeSounding_state (i : Nat) (depth : Int) (s : State) :
    (takeSounding i depth s).1 = s.setVerticals (takeSounding i depth s).1.verticals := by
  unfold takeSounding
  split <;> rfl

/-- R2: the count after a change of one line is the claims' `movedCount`. -/
theorem stepCount_moved {e : QuadratureEdge} (n : Word) (h : e.changed ≠ .both) :
    stepCount n (quadratureStep e) = movedCount e n := by
  have : quadratureStep e =
      if (e.changed = .lineA ∧ e.a ≠ e.b) ∨ (e.changed = .lineB ∧ e.a = e.b) then 1 else -1 := by
    rcases e with ⟨c, a, b⟩
    cases c <;> cases a <;> cases b <;> first
      | decide
      | exact absurd rfl h
  unfold movedCount
  rw [this]
  split
  · rfl
  · rw [BitVec.sub_eq_add_neg]
    rfl

theorem quadratureStep_ne {e : QuadratureEdge} (h : e.changed ≠ .both) : quadratureStep e ≠ 0 := by
  rcases e with ⟨c, a, b⟩
  cases c <;> cases a <;> cases b <;> first
    | decide
    | exact absurd rfl h

/-- R95: a position is present exactly when it is known. -/
theorem knownPosition_isSome (s : State) : s.knownPosition.isSome = s.cable.positionKnown := by
  unfold State.knownPosition
  split <;> simp_all

/-! ### RESTART -/

/-- R136: a run that is not under way is kept as it stands. -/
theorem restartRun_over {s : State}
    (h : ¬ (s.gauging.run.state = .armed ∨ s.gauging.run.state = .running ∨ s.gauging.run.state = .returning)) :
    restartRun s = s := by
  unfold restartRun
  split
  · next k => exact absurd (Or.inl k) h
  · next k => exact absurd (Or.inr (Or.inl k)) h
  · next k => exact absurd (Or.inr (Or.inr k)) h
  · rfl

/-- R136: a run under way ends. -/
theorem restartRun_ends {s : State}
    (h : s.gauging.run.state = .armed ∨ s.gauging.run.state = .running ∨ s.gauging.run.state = .returning) :
    restartRun s = endRun { s.run with
      state := .aborted, endReason := s.run.endReason.or (some .restarted),
      endTime := s.run.endTime.or (some s.clock), endStage := s.run.endStage.or s.stage.record.stage } s := by
  unfold restartRun
  have e : s.run.state = s.gauging.run.state := rfl
  rw [e]
  rcases h with h | h | h <;> rw [h]

/-- R99, R136: the result Restarted ends a run as RESTART itself does, so handing it over first changes nothing. -/
theorem restartRun_delivered (s : State) :
    restartRun (deliver { state := s, result := some .restarted }) = restartRun s := by
  have twice : s.gauging.run.state = .running ∨ s.gauging.run.state = .returning →
      restartRun (restartRun s) = restartRun s := by
    intro h
    rw [restartRun_ends (Or.inr h)]
    exact restartRun_over (by rintro (k | k | k) <;> cases k)
  have e : s.run.state = s.gauging.run.state := rfl
  rw [deliver_some]
  unfold takeResult
  rw [e]
  cases hr : s.gauging.run.state with
  | running => exact twice (Or.inl hr)
  | returning =>
    cases s.run.step with
    | none => exact twice (Or.inr hr)
    | some x => cases x <;> exact twice (Or.inr hr)
  | _ => rfl

/-- R113, R136: what RESTART leaves of the cableway and the run. -/
theorem restartRun_cable (s : State) :
    restartRun (deliver (restartCable s)) = restartRun (restartCable s).state := by
  unfold restartCable
  cases s.cable.activity with
  | moving m => exact restartRun_delivered _
  | _ => rfl

/-! ### What names a run -/

/-- R120, R123: what names a run from its start to its end: its id and its start time. -/
def State.runName (s : State) : Option (BitVec 16) × Option Word := (s.gauging.run.id, s.gauging.run.startTime)

theorem travel_gauging (way : TraverseWay) (s : State) : (travel way s).gauging = s.gauging := by
  unfold travel
  repeat' split
  all_goals rfl

theorem hoistTests_gauging (s : State) : (hoistTests s).state.gauging = s.gauging := by
  unfold hoistTests
  repeat' split
  all_goals rfl

/-- R99: a movement taken leaves the Gauging Unit. -/
theorem takeMovement_gauging (m : MoveRequest) (s : State) : (takeMovement m s).state.gauging = s.gauging := by
  unfold takeMovement
  split
  · rfl
  · split
    all_goals first
      | rfl
      | (unfold takeTraverseTo; dsimp only; repeat' split
         all_goals first
           | rfl
           | exact travel_gauging _ _)
      | (unfold takeGoHome; split
         · rfl
         · exact travel_gauging _ _)
      | (unfold takeLowerTo; split
         · rfl
         · exact hoistTests_gauging _)
      | exact hoistTests_gauging _

theorem stopMovement_gauging (s : State) : (stopMovement s).state.gauging = s.gauging := by
  unfold stopMovement
  repeat' split
  all_goals rfl

theorem stopMovement_runName (s : State) : (stopMovement s).state.runName = s.runName := by
  unfold State.runName
  rw [stopMovement_gauging]

theorem ask_runName (x : Step) (m : MoveRequest) (s : State) : (ask x m s).state.runName = s.runName := by
  unfold ask State.runName
  rw [takeMovement_gauging]
  rfl

theorem placeNext_runName (s : State) : (placeNext s).state.runName = s.runName := by
  unfold placeNext stow
  repeat' split
  all_goals exact ask_runName _ _ _

theorem enterVertical_runName (i : Nat) (s : State) : (enterVertical i s).runName = s.runName := by
  unfold enterVertical
  split <;> rfl

theorem traverseToVertical_runName (i : Nat) (s : State) : (traverseToVertical i s).state.runName = s.runName := by
  unfold traverseToVertical
  split
  · exact ask_runName _ _ _
  · rfl

theorem finishVertical_runName (s : State) : (finishVertical s).state.runName = s.runName := by
  unfold finishVertical
  split
  · exact (traverseToVertical_runName _ _).trans (enterVertical_runName _ s)
  · exact ask_runName _ _ _

theorem finishReturn_runName (s : State) : (finishReturn s).runName = s.runName := by
  unfold finishReturn
  split <;> rfl

theorem abortRun_runName (r : EndReason) (s : State) : (abortRun r s).state.runName = s.runName := by
  unfold abortRun
  dsimp only
  split
  · exact stopMovement_runName _
  · exact stopMovement_runName _
  · rfl
  · exact finishReturn_runName _
  · exact ask_runName _ _ _

theorem faultedEnd_runName (s : State) : (faultedEnd s).runName = s.runName := by
  unfold faultedEnd
  split <;> rfl

theorem restartRun_runName (s : State) : (restartRun s).runName = s.runName := by
  unfold restartRun
  split <;> rfl

theorem arrival_runName (s : State) : (arrival s).state.runName = s.runName := by
  unfold arrival
  split
  · exact abortRun_runName _ _
  · split
    · unfold arriveWith
      dsimp only
      split
      · exact finishVertical_runName _
      · split <;> exact ask_runName _ _ _
    · rfl
  · rfl

theorem bottomFound_runName (depth : Int) (s : State) : (bottomFound depth s).state.runName = s.runName := by
  have h : (takeSounding (s.run.current.getD 0) depth s).1.runName = s.runName := by
    unfold takeSounding
    split <;> rfl
  unfold bottomFound stow
  dsimp only
  split
  · exact (ask_runName _ _ _).trans h
  · exact (placeNext_runName _).trans h

theorem lowerResult_runName (how : LowerEnd) (stop : Bool) (s : State) :
    (lowerResult how stop s).state.runName = s.runName := by
  unfold lowerResult soundResult surfaceResult stowDry stow
  repeat' split
  all_goals first
    | rfl
    | exact bottomFound_runName _ s
    | exact ask_runName _ _ _
    | exact placeNext_runName _

theorem takeResult_runName (r : MoveResult) (s : State) : (takeResult r s).state.runName = s.runName := by
  unfold takeResult
  split
  all_goals first
    | rfl
    | exact abortRun_runName _ s
    | exact faultedEnd_runName s
    | exact restartRun_runName s
    | exact arrival_runName s
    | exact lowerResult_runName _ _ s
    | exact finishVertical_runName s
    | exact ask_runName _ _ _
    | exact finishReturn_runName s

/-- What is handed to the Gauging Unit leaves the id and the start time of the run. -/
theorem deliver_runName (m : Moved) : (deliver m).runName = m.state.runName := by
  have key : ∀ n r s, (drain n r s).runName = s.runName := by
    intro n
    induction n with
    | zero => intros; rfl
    | succ n ih =>
      intro r s
      unfold drain
      split
      · exact takeResult_runName r s
      · exact (ih _ _).trans (takeResult_runName r s)
  unfold deliver
  split
  · rfl
  · exact key _ _ _

/-- R120, R123: a run that starts keeps its id and takes its start time, wherever the start leads. -/
theorem startRunning_runName (s : State) :
    (startRunning s).runName = (s.gauging.run.id, some s.clock) := by
  unfold startRunning
  dsimp only
  split
  · rfl
  · split
    · exact (deliver_runName _).trans ((abortRun_runName _ _).trans (enterVertical_runName _ _))
    · exact (deliver_runName _).trans ((traverseToVertical_runName _ _).trans (enterVertical_runName _ _))

/-- R123: RunStarted is raised when a run starts. -/
theorem startRunning_attends (s : State) : (startRunning s).attends .runStarted = true := by
  have key : ∀ {r v t}, CableFrame ((s.setGauging { s.gauging with run := r, visit := v }).raise .runStarted) t →
      t.attends .runStarted = true := by
    intro r v t h
    refine h.raised _ ?_
    show (addReason s.port.attention .runStarted).getLsbD 9 = true
    unfold addReason
    rw [BitVec.getLsbD_or]
    simp [Reason.bit]
  unfold startRunning
  dsimp only
  split
  · exact key (CableFrame.refl _)
  · split
    · exact key (CableFrame.after (deliver_frame _) (CableFrame.after (abortRun_frame _ _) (enterVertical_frame _ _)))
    · exact key (CableFrame.after (deliver_frame _)
        (CableFrame.after (traverseToVertical_frame _ _) (enterVertical_frame _ _)))

/-! ### The Skip verticals passed -/

/-- R119, R124, R129: the Skipped entries are those of the Skip verticals between the last entry and a distance. -/
theorem skippedEntries_passedOver (s : State) (below : Option Int) :
    PassedOver s.verticals (s.gauging.run.results.getLast?.map fun e => e.distance) below (s.skippedEntries below) := by
  have entered : ∀ (i : Nat) (e : Entry),
      (match s.verticals[i]? with
        | some v =>
          if v.skip = .skip ∧ ((s.entry.map fun e => decide (e.distance < v.distance)).getD true)
              ∧ ((below.map fun d => decide (v.distance < d)).getD true) then
            some { Entry.blank i v.distance with skipped := true }
          else none
        | none => none) = some e ↔
      ∃ v, s.verticals[i]? = some v ∧ v.skip = .skip ∧
        (∀ d, (s.gauging.run.results.getLast?.map fun e => e.distance) = some d → d < v.distance) ∧
        (∀ d, below = some d → v.distance < d) ∧ e = { Entry.blank i v.distance with skipped := true } := by
    intro i e
    unfold State.entry State.run
    rcases s.verticals[i]? with _ | v
    · simp
    · cases s.gauging.run.results.getLast? <;> cases below <;> simp [eq_comm, and_assoc]
  constructor
  · unfold State.skippedEntries
    rw [List.pairwise_filterMap]
    refine List.pairwise_lt_range.imp ?_
    intro i j hij a ha b hb
    obtain ⟨v, -, -, -, -, rfl⟩ := (entered i a).mp ha
    obtain ⟨w, -, -, -, -, rfl⟩ := (entered j b).mp hb
    exact hij
  · intro e
    unfold State.skippedEntries
    rw [List.mem_filterMap]
    constructor
    · rintro ⟨i, -, h⟩
      exact ⟨i, (entered i e).mp h⟩
    · rintro ⟨i, v, h⟩
      exact ⟨i, List.mem_range.mpr (List.getElem?_eq_some_iff.mp h.1).1, (entered i e).mpr ⟨v, h⟩⟩

/-! ### The start of a run -/

theorem filter_range_length (p : Vertical → Bool) (vs : List Vertical) :
    ((List.range vs.length).filter fun i => (vs[i]?.map p).getD false).length = (vs.filter p).length := by
  induction vs with
  | nil => rfl
  | cons v vs ih =>
    rw [List.length_cons, List.range_succ_eq_map, List.filter_cons, List.filter_cons, List.filter_map]
    have e : ((fun i => ((v :: vs)[i]?.map p).getD false) ∘ Nat.succ) = fun i => (vs[i]?.map p).getD false := by
      funext i
      rfl
    rw [e]
    show (if p v = true then _ else _ : List Nat).length = _
    split <;> simp [ih]

/-- R117: the visit list names the Measure verticals. -/
theorem measureIndices_length (s : State) :
    s.measureIndices.length = (s.verticals.filter fun v => v.skip == .measure).length :=
  filter_range_length Vertical.measured s.verticals

theorem filter_range_cons (p : Nat → Bool) (n i : Nat) (hi : i < n) (h : p i = true)
    (hj : ∀ j, j < i → p j = false) :
    ∃ rest, (List.range n).filter p = i :: rest := by
  obtain ⟨m, rfl⟩ : ∃ m, n = i + (m + 1) := ⟨n - i - 1, by omega⟩
  have e : (List.range i).filter p = [] := by
    rw [List.filter_eq_nil_iff]
    intro j hm
    rw [hj j (List.mem_range.mp hm)]
    decide
  rw [List.range_add, List.filter_append, e, List.nil_append, List.range_succ_eq_map, List.map_cons,
    List.filter_cons, Nat.add_zero, if_pos h]
  exact ⟨_, rfl⟩

theorem measureIndices_first {s : State} {i : Nat} {v : Vertical} (h : FirstMeasured s.verticals i v) :
    ∃ rest, s.measureIndices = i :: rest := by
  obtain ⟨h1, h2, h3⟩ := h
  apply filter_range_cons
  · exact (List.getElem?_eq_some_iff.mp h1).1
  · rw [h1]
    show v.measured = true
    unfold Vertical.measured
    rw [h2]
    decide
  · intro j hj
    rcases hw : s.verticals[j]? with _ | w
    · rfl
    · show w.measured = false
      unfold Vertical.measured
      rw [h3 j w hj hw]
      decide

/-- R100: a traverse taken by a Parked or Holding carriage short of the vertical. -/
theorem takeTraverseTo_departs {s : State} {v : Vertical}
    (hp : s.cable.state = .parked ∨ s.cable.state = .holding) (ha : s.cable.activity = .idle)
    (ht : s.asserted .top = true) (hd : s.position < v.distance - 5) (hi : s.warning.effects.cableInhibit = []) :
    takeMovement (.traverseTo v.distance) s = going (s.setCable { s.cable.runTraverse .outward with
      state := .traversing, activity := .moving (.traverseTo v.distance .outward),
      slow := s.nearTarget v.distance, recovering := false }) := by
  have taken : takeMovement (.traverseTo v.distance) s = takeTraverseTo v.distance s := by
    unfold takeMovement
    rw [ha, if_neg (by simp)]
    rcases hp with h | h <;> rw [h]
  rw [taken]
  unfold takeTraverseTo
  have hin : s.inhibited = false := by
    unfold State.inhibited
    rw [hi]
    rfl
  have hw : s.position < v.distance := by omega
  have harr : s.arrivedAt v.distance .outward = false := by
    unfold State.arrivedAt Config.arrivalWindow
    rw [decide_eq_false_iff_not]
    omega
  rw [if_pos hw]
  dsimp only
  rw [if_neg (by simp [hin]), if_neg (by simp [harr])]
  unfold travel
  rw [if_pos (by exact ht)]
  rfl

/-- R123, R124: a run that starts where the carriage may depart touches the Gauging Unit, the cableway and RunStarted
alone, and is on its way to its first Measure vertical. -/
theorem startRunning_departs {s : State} {i : Nat} {v : Vertical} (hr : s.gauging.run.state = .armed)
    (hm : FirstMeasured s.verticals i v) (hd : CanDepart s v) (hi : s.warning.effects.cableInhibit = []) :
    RunBegins i v s (startRunning s) ∧
      startRunning s = ((s.setGauging (startRunning s).gauging).raise .runStarted).setCable (startRunning s).cable := by
  obtain ⟨rest, hrest⟩ := measureIndices_first hm
  obtain ⟨h1, h2, h3, h4⟩ := hd
  have hin : s.inhibited = false := by
    unfold State.inhibited
    rw [hi]
    rfl
  have hgo : ∀ u : State, u.verticals[i]? = some v →
      traverseToVertical i u = ask .traverse (.traverseTo v.distance) u := by
    intro u hu
    unfold traverseToVertical
    rw [hu]
  unfold startRunning
  rw [hrest]
  dsimp only
  rw [if_neg (by rw [hin]; decide), hgo _ (by unfold enterVertical; split <;> exact hm.1)]
  unfold enterVertical
  simp only [raise_verticals, setGauging_verticals, hm.1]
  unfold ask
  rw [takeTraverseTo_departs (Or.inl (by exact h1)) (by exact h2) (by exact h3) (by exact h4) (by exact hi)]
  refine ⟨⟨?_, rfl, rfl, rfl, rfl, rfl, rfl, rfl, ?_, rfl, rfl, rfl, rfl⟩, rfl⟩
  · rw [show s.startResults = s.gauging.run.results from if_pos hr]
    refine ⟨s.skippedEntries (some v.distance), rfl, skippedEntries_passedOver s _⟩
  show (addReason s.port.attention .runStarted).getLsbD 9 = true
  unfold addReason
  rw [BitVec.getLsbD_or]
  simp [Reason.bit]

/-- R121: when an Armed run starts. -/
theorem startIfReady_ready {s : State} (h : RunReady s) : startIfReady s = startRunning s := by
  obtain ⟨h1, h2, h3, h4⟩ := h
  unfold startIfReady
  rw [if_pos ⟨h1, h2, by unfold State.inhibited; rw [h3]; rfl, by rw [measureIndices_length]; exact h4⟩]

/-- R173: an answer that enters the slot leaves what a run's start left. -/
theorem RunBegins.answered {i : Nat} {v : Vertical} {s t : State} (h : RunBegins i v s t) (a : Answer) :
    RunBegins i v s (t.fillSlot a) := by
  obtain ⟨h0, h1, h2, h3, h4, h5, h6, h7, h8, h9⟩ := h
  refine ⟨h0, h1, h2, h3, h4, h5, h6, h7, ?_, h9⟩
  show (addReason t.port.attention .answerReady).getLsbD 9 = true
  unfold addReason
  rw [BitVec.getLsbD_or, show t.port.attention.getLsbD 9 = true from h8, Bool.true_or]

theorem startIfReady_waits {s : State} (h : ¬ RunReady s) : startIfReady s = s := by
  unfold startIfReady
  rw [if_neg]
  rintro ⟨h1, h2, h3, h4⟩
  refine h ⟨h1, h2, ?_, by rw [← measureIndices_length]; exact h4⟩
  unfold State.inhibited at h3
  simpa using h3

end Sys2Proof.Machine
end

