-- ==== Sys2Proof/Laws/Tables.lean ====
section
/-! SUPPORT. The laws of the draft, the shift table, the cursor and the section under the edits that requests make. -/

namespace Sys2Proof.Machine

/-! ### The draft (R42, R48) -/

theorem DraftLaw.erase {draft : List Point} (h : DraftLaw draft) (k : Nat) : DraftLaw (draft.eraseIdx k) :=
  ⟨(List.length_eraseIdx_le draft k).trans h.1, h.2.sublist (List.eraseIdx_sublist draft k)⟩

theorem ActiveLaw.draft {points : List Point} (h : ActiveLaw points) : DraftLaw points := by
  rcases h with rfl | ⟨_, h, hp⟩
  · exact ⟨by decide, List.Pairwise.nil⟩
  · exact ⟨h, hp.imp fun hab => ne_of_lt hab.1⟩

/-- A list with one element replaced is pairwise related when the new element is related to all the others. -/
theorem pairwise_set {α : Type} {R : α → α → Prop} (l : List α) (k : Nat) (a : α) (h : l.Pairwise R)
    (hl : ∀ b ∈ l.take k, R b a) (hr : ∀ b ∈ l.drop (k + 1), R a b) : (l.set k a).Pairwise R := by
  by_cases hk : k < l.length
  · rw [List.set_eq_take_append_cons_drop, if_pos hk]
    rw [List.pairwise_append]
    have hs := h
    rw [← List.take_append_drop k l, List.pairwise_append] at hs
    have hd : (l.drop (k + 1)).Pairwise R := h.sublist (List.drop_sublist _ _)
    refine ⟨hs.1, List.pairwise_cons.mpr ⟨hr, hd⟩, ?_⟩
    intro x hx y hy
    rcases List.mem_cons.mp hy with rfl | hy
    · exact hl x hx
    · refine hs.2.2 x hx y ?_
      rw [List.drop_eq_getElem_cons hk]
      exact List.mem_cons_of_mem _ hy
  · rw [List.set_eq_of_length_le (by omega)]
    exact h

theorem commitPoint_draft {s : State} {k : Nat} {p : Point} {d : List Point} (h : DraftLaw s.rating.draft)
    (hk : k < Config.ratingPoints) (e : commitPoint s k p = .ok d) : DraftLaw d := by
  unfold commitPoint at e
  dsimp only at e
  split at e
  · cases e
  · split at e
    · cases e
    · split at e
      · cases e
      · next hgap =>
        split at e
        · cases e
        · next hsame =>
          have hne : ∀ q ∈ s.rating.draft.take k ++ s.rating.draft.drop (k + 1), q.stage ≠ p.stage := by
            intro q hq hqs
            exact hsame (List.any_eq_true.mpr ⟨q, hq, by simp [hqs]⟩)
          split at e
          · cases e
            refine ⟨by rw [List.length_set]; exact h.1, pairwise_set _ _ _ h.2 ?_ ?_⟩
            · exact fun b hb => hne b (List.mem_append_left _ hb)
            · exact fun b hb => (hne b (List.mem_append_right _ hb)).symm
          · cases e
            have hlen : s.rating.draft.length = k := by omega
            refine ⟨by simp [hlen]; omega, ?_⟩
            rw [List.pairwise_append]
            refine ⟨h.2, List.pairwise_singleton _ _, ?_⟩
            intro a ha b hb
            rw [List.mem_singleton.mp hb]
            refine hne a (List.mem_append_left _ ?_)
            rw [List.take_of_length_le (by omega)]
            exact ha

/-! ### The shift table (R65) -/

/-- R65: the bands in use are the occupied slots. -/
theorem mem_inUse (t : ShiftTable) (p : Nat × Band) :
    p ∈ t.inUse ↔ ∃ i : Fin Config.shiftBands, p.1 = i.val ∧ t.get i = some p.2 := by
  unfold ShiftTable.inUse ShiftTable.slots
  simp only [List.mem_filterMap, List.mem_map, List.mem_finRange, true_and]
  constructor
  · rintro ⟨q, ⟨i, rfl⟩, hp⟩
    simp only [Option.map_eq_some_iff] at hp
    obtain ⟨b, hb, rfl⟩ := hp
    exact ⟨i, rfl, hb⟩
  · rintro ⟨i, h1, h2⟩
    exact ⟨_, ⟨i, rfl⟩, by simp [h2, ← h1]⟩

/-! ### The section table (R79 to R83) -/

theorem SectionLaw.erase {t : Settings} {vs : List Vertical} (h : SectionLaw t vs) (k : Nat) :
    SectionLaw t (vs.eraseIdx k) :=
  ⟨(List.length_eraseIdx_le vs k).trans h.1, h.2.1.sublist (List.eraseIdx_sublist vs k),
    fun v hv => h.2.2 v (List.mem_of_mem_eraseIdx hv)⟩

theorem getElem_lt_of_pairwise {vs : List Vertical} (h : vs.Pairwise fun a b => a.distance < b.distance) {i j : Nat}
    (hi : i < vs.length) (hj : j < vs.length) (hij : i < j) : vs[i].distance < vs[j].distance :=
  List.pairwise_iff_getElem.mp h i j hi hj hij

theorem commitVertical_section {s : State} {k : Nat} {a b c d : Word} {vs : List Vertical}
    (h : SectionLaw s.settings s.verticals) (hk : k < Config.verticals)
    (e : commitVertical s k a b c d = .ok vs) : SectionLaw s.settings vs := by
  unfold commitVertical at e
  split at e
  · cases e
  · split at e
    · cases e
    · next hspan =>
      split at e
      · cases e
      · split at e
        · cases e
        · cases e
        · split at e
          · cases e
          · next hgap =>
            split at e
            · cases e
            · next hbetween =>
              have hspan' : s.settings.read .spanStart ≤ a.toInt ∧ a.toInt ≤ s.settings.read .spanEnd :=
                (within_iff _ _ _).mp (Decidable.of_not_not hspan)
              have hb : betweenNeighbours s.verticals k a.toInt = true := by simpa using hbetween
              unfold betweenNeighbours at hb
              rw [Bool.and_eq_true] at hb
              obtain ⟨hlow, hup⟩ := hb
              have hbelow : ∀ i (hi : i < s.verticals.length), i < k → s.verticals[i].distance < a.toInt := by
                intro i hi hik
                cases k with
                | zero => omega
                | succ k =>
                  dsimp only at hlow
                  have hkl : k < s.verticals.length := by omega
                  rw [List.getElem?_eq_getElem hkl] at hlow
                  have hlow' : s.verticals[k].distance < a.toInt := by simpa using hlow
                  rcases Nat.lt_or_ge i k with hik' | hik'
                  · exact (getElem_lt_of_pairwise h.2.1 hi hkl hik').trans hlow'
                  · have : i = k := by omega
                    subst this
                    exact hlow'
              have habove : ∀ i (hi : i < s.verticals.length), k < i → a.toInt < s.verticals[i].distance := by
                intro i hi hki
                have hkl : k + 1 < s.verticals.length := by omega
                rw [List.getElem?_eq_getElem hkl] at hup
                have hup' : a.toInt < s.verticals[k + 1].distance := by simpa using hup
                rcases Nat.lt_or_ge (k + 1) i with hik' | hik'
                · exact hup'.trans (getElem_lt_of_pairwise h.2.1 hkl hi hik')
                · have : i = k + 1 := by omega
                  subst this
                  exact hup'
              have htake : ∀ v ∈ s.verticals.take k, v.distance < a.toInt := by
                intro v hv
                obtain ⟨i, hi, rfl⟩ := List.getElem_of_mem hv
                rw [List.length_take] at hi
                rw [List.getElem_take]
                exact hbelow i (by omega) (by omega)
              have hdrop : ∀ v ∈ s.verticals.drop (k + 1), a.toInt < v.distance := by
                intro v hv
                obtain ⟨i, hi, rfl⟩ := List.getElem_of_mem hv
                rw [List.length_drop] at hi
                rw [List.getElem_drop]
                exact habove _ (by omega) (by omega)
              split at e
              · cases e
                refine ⟨by rw [List.length_set]; exact h.1, pairwise_set _ _ _ h.2.1 htake hdrop, ?_⟩
                intro v hv
                rcases List.mem_or_eq_of_mem_set hv with hv | rfl
                · exact h.2.2 v hv
                · exact hspan'
              · cases e
                have hlen : s.verticals.length = k := by omega
                refine ⟨by simp [hlen]; omega, ?_, ?_⟩
                · rw [List.pairwise_append]
                  refine ⟨h.2.1, List.pairwise_singleton _ _, ?_⟩
                  intro v hv w hw
                  rw [List.mem_singleton.mp hw]
                  exact htake v (by rw [List.take_of_length_le (by omega)]; exact hv)
                · intro v hv
                  rcases List.mem_append.mp hv with hv | hv
                  · exact h.2.2 v hv
                  · rw [List.mem_singleton.mp hv]
                    exact hspan'

/-- The section law reads the fixed fields of the verticals alone. -/
theorem SectionLaw.of_fixed {t : Settings} {vs ws : List Vertical} (h : SectionLaw t vs)
    (e : ws.map Vertical.fixed = vs.map Vertical.fixed) : SectionLaw t ws := by
  have hd : ws.map (fun v => v.distance) = vs.map (fun v => v.distance) := by
    have := congrArg (List.map fun f : Int × MeasurePlan × SkipFlag => f.1) e
    simpa [List.map_map, Function.comp_def, Vertical.fixed] using this
  have hl : ws.length = vs.length := by simpa using congrArg List.length hd
  refine ⟨by rw [hl]; exact h.1, ?_, ?_⟩
  · have hp : (vs.map fun v => v.distance).Pairwise (· < ·) := List.pairwise_map.mpr h.2.1
    rw [← hd] at hp
    exact List.pairwise_map.mp hp
  · intro v hv
    have hm : v.distance ∈ ws.map (fun v => v.distance) := List.mem_map_of_mem hv
    rw [hd] at hm
    obtain ⟨w, hw, hwv⟩ := List.mem_map.mp hm
    rw [← hwv]
    exact h.2.2 w hw

/-! ### The cursor (R44 to R49) -/

theorem fieldCount_pos (t : Table) : 0 < t.fieldCount := by cases t <;> decide

theorem CursorLaw.emptied {c : Cursor} (h : CursorLaw c) : CursorLaw { c with fields := [] } :=
  ⟨h.1, fieldCount_pos _, fun _ => rfl⟩

theorem CursorLaw.advanced {c : Cursor} (n : Nat) :
    CursorLaw { c with index := c.table.onward c.index n, fields := [] } := by
  have : 0 < c.table.slots := by cases c.table <;> decide
  exact ⟨Nat.mod_lt _ this, fieldCount_pos _, fun _ => rfl⟩

theorem CursorLaw.set (t : Table) (k : Nat) (h : k < t.slots) : CursorLaw { table := t, index := k, fields := [] } :=
  ⟨h, fieldCount_pos _, fun _ => rfl⟩

end Sys2Proof.Machine
end

