-- ==== Sys2Proof/Laws/Steps.lean ====
section
/-! SUPPORT. The proof rule for properties that every step keeps: a property that passes through the edits below, each
with what the requests have checked before it, is kept by `step`. -/

namespace Sys2Proof.Machine

/-- The edits of State that commands are made of, each with its guard. -/
structure Kept (P : State → Prop) : Prop where
  frame : ∀ s t, CableFrame s t → P s → P t
  pending : ∀ s q, P s → P (s.setPending q)
  slot : ∀ s a, P s → P (s.fillSlot a)
  undriven : ∀ s, P s → P s.undriven
  ignored : ∀ s, P s → P s.periodIgnored
  overrun : ∀ s, P s → P (s.raise .overrun)
  fetch : ∀ n s, P s → P (fetchFrame n s)
  reset : ∀ pin s, P s → P (takeReset pin s)
  attention : ∀ s, s.port.slot = none → P s → P (s.setAttention 0)
  mask : ∀ s w m, maskOf w = some m → P s → P (s.setPort { s.port with mask := m })
  cursor : ∀ s c, (CursorLaw s.port.cursor → CursorLaw c) → P s → P (s.setCursor c)
  clock : ∀ s c, P s → P (s.setClock c)
  settings : ∀ s params ps, settingPairs params = some ps → checkPairs ps = none →
    checkSettings s ps (applyPairs s.settings ps) = none → P s → P (applySettings (applyPairs s.settings ps) s)
  configured : ∀ s i c, (c = (s.channel i).configuredOff s ∨
      (∃ scale offset mark, c = (s.channel i).configuredEncoder s scale offset mark) ∨
        ∃ scale offset, c = (s.channel i).configuredFrequency s scale offset) → P s → P (s.putChannel i c)
  corrected : ∀ s i offset, (s.channel i).condition = .valid → P s →
    P (s.putChannel i ((s.channel i).corrected s offset))
  pendingSetup : ∀ s u, u.checks.getLsbD u.primary.val = false → P s →
    P (s.setStage { s.stage with pendingSetup := some u })
  draft : ∀ s d, (DraftLaw s.rating.draft → ActiveLaw s.rating.active.points → CursorLaw s.port.cursor → DraftLaw d) →
    P s → P (draftChange d s)
  adoptionRequest : ∀ s a, P s → P (s.setRating { s.rating with adoption := a })
  band : ∀ s k lower upper target, k < Config.shiftBands → lower < upper →
    within (-s.setting .shiftLimit) (s.setting .shiftLimit) target = true →
    s.rating.bands.clash k lower upper = false → P s →
    P (s.setBands (s.rating.bands.put k (some (definedBand s (s.rating.bands.band k) lower upper target))))
  bandRetired : ∀ s k b, k < Config.shiftBands → s.rating.bands.band k = some b → P s →
    P (s.setBands (s.rating.bands.put k (some (b.retire s.clock))))
  verticals : ∀ s vs, s.sectionLocked = false →
    (SectionLaw s.settings s.verticals → CursorLaw s.port.cursor → SectionLaw s.settings vs) → P s →
    P (s.setVerticals vs)
  meter : ∀ s m, P s → P (s.setGauging { s.gauging with meter := m })
  newRun : ∀ s r n, s.fitted = true → s.cable.state = .parked → P s →
    P (s.setGauging { s.gauging with run := r, nextId := n })
  acceptance : ∀ s id mean proposal q, acceptShift s id mean proposal = .ok q → P s → P q.state
  ruleDefined : ∀ s k r, k < Config.rules → (∀ q, s.warning.rules.rule k = some q → q.state = .disarmed) →
    (r.state = .disarmed ∨ r.state = .armed) → P s → P (s.setRules (s.warning.rules.put k (some r)))
  ruleOut : ∀ s k r after, P s → P (takeRuleOut k r after s)
  ruleAcknowledged : ∀ s k r, P s → P (formEffects (s.setRules (s.warning.rules.put k (some r))))
  quadrature : ∀ i e s, P s → P (quadratureChange i e s)
  mark : ∀ i e s, P s → P (markEdge i e s)
  pulse : ∀ i s, P s → P (frequencyPulse i s)
  gate : ∀ i s, P s → P (gateCompletion i s)
  settling : ∀ i s, P s → P (settlingTimerExpiry i s)
  interval : ∀ s, P s → P (stageIntervalExpiry s)
  ramp : ∀ s, P s → P (rampExpiry s)
  adoption : ∀ s, P s → P (adoptionCompletion s)
  second : ∀ s, P s → P (clockSecond s)
  boundary : ∀ s, P s → P (drivePeriodBoundary s).state
  contact : ∀ c v s, P s → P (contactChange c v s).state
  phase : ∀ s, P s → P (patternPhaseEnd s)

/-- The values of a WRITE FIELDS are cursor moves and commits. -/
theorem takeValues_keeps {P : State → Prop} (K : Kept P) (ws : List Word) (n : Nat) (s : State)
    (ht : s.port.cursor.table ≠ .active) (h : P s) : P (takeValues ws n s).state := by
  induction ws generalizing n s with
  | nil => exact h
  | cons w ws ih =>
    unfold takeValues
    dsimp only
    split
    · next hlen =>
      exact ih _ _ ht (K.cursor s _ (fun hc => ⟨hc.1, hlen, fun ha => absurd ha ht⟩) h)
    · split
      · exact K.cursor s _ (fun hc => hc.emptied) h
      · next s' e =>
        have hs' : P s' ∧ s'.port.cursor = s.port.cursor := by
          unfold commitEntry at e
          split at e
          · next htab _ =>
            split at e
            · cases e
            · next hd =>
              cases e
              refine ⟨K.draft s _ (fun hdraft _ hcur => ?_) h, ?_⟩
              · have hidx := hcur.1
                rw [htab] at hidx
                exact commitPoint_draft hdraft hidx hd
              · unfold draftChange
                split <;> rfl
          · next htab _ =>
            split at e
            · cases e
            · next hv =>
              cases e
              have hl : s.sectionLocked = false := by
                unfold commitVertical at hv
                split at hv
                · cases hv
                · next hl => simpa using hl
              refine ⟨K.frame _ _ (startIfReady_frame _) (K.verticals s _ hl (fun hsec hcur => ?_) h),
                (startIfReady_frame _).cursor⟩
              have hidx := hcur.1
              rw [htab] at hidx
              exact commitVertical_section hsec hidx hv
          · cases e
        refine ih _ _ ?_ (K.cursor s' _ (fun _ => CursorLaw.advanced 1) hs'.1)
        show s'.port.cursor.table ≠ .active
        rw [hs'.2]
        exact ht

/-- R173: what the owners of requests keep. -/
theorem owner_keeps {P : State → Prop} (K : Kept P) (r : RequestName) (p : List Byte) (s : State)
    (hs : s.port.slot = none) (h : P s) : P (owner r p s).state := by
  have T : ∀ {x : Taken}, Turned x s → P x.state := fun hx => by rw [hx.state]; exact h
  have A : ∀ {x : Taken}, Answers x s → P x.state := fun hx => by obtain ⟨_, rfl⟩ := hx; exact h
  have E : ∀ {x : Taken} {t : State} {b : List Byte}, x = done t b → P t → P x.state := fun e ht => by
    rw [e]; exact ht
  have E' : ∀ {x : Taken} {t : State} {b : List Byte}, x = accepted t b → P t → P x.state := fun e ht => by
    rw [e]; exact ht
  cases r with
  | identify => exact (identify_cases p s).elim T A
  | readAttention => exact (readAttention_cases p s).elim T fun ⟨_, e⟩ => E e (K.attention s hs h)
  | setAttentionMask =>
    exact (setAttentionMask_cases p s).elim T fun k => k.elim A fun ⟨w, m, _, hm, e⟩ => E e (K.mask s w m hm h)
  | setClock => exact (setClock_cases p s).elim T fun ⟨c, _, e⟩ => E e (K.clock s c h)
  | readClock => exact (readClock_cases p s).elim T A
  | writeSettings =>
    exact (writeSettings_cases p s).elim T fun ⟨ps, _, h1, h2, h3, e⟩ => E e (K.settings s p ps h1 h2 h3 h)
  | readSettings => exact (readSettings_cases p s).elim T A
  | readStation => exact (readStation_cases p s).elim T A
  | restart =>
    refine (restart_cases p s).elim T fun ⟨_, e⟩ => E e ?_
    have hf := ((restartCable_frame s).trans (deliver_frame _)).trans (restartRun_frame _)
    have h1 : P (abandonAdoption (restartRun (deliver (restartCable s)))) := K.adoptionRequest _ _ (K.frame _ _ hf h)
    refine K.attention _ ?_ (K.cursor _ _ (fun _ => CursorLaw.set _ _ (by decide)) h1)
    exact hf.slot.trans hs
  | configureChannel =>
    exact (configureChannel_cases p s).elim T fun ⟨i, c, e, hc⟩ => E e (K.configured s i c hc h)
  | setChannelStage =>
    exact (setChannelStage_cases p s).elim T fun ⟨i, o, _, hc, e⟩ => E e (K.corrected s i o hc h)
  | readChannel => exact (readChannel_cases p s).elim T A
  | setVote => exact (setVote_cases p s).elim T fun k => k.elim A fun ⟨u, _, hu, e⟩ => E e (K.pendingSetup s u hu h)
  | setCursor =>
    exact (setCursor_cases p s).elim T fun k => k.elim A fun ⟨t, k, _, hk, e⟩ =>
      E e (K.cursor s _ (fun _ => CursorLaw.set t k hk) h)
  | writeFields =>
    show P (writeFields p s).state
    rcases writeFields_cases p s with e | ⟨ws, _, ht, e⟩
    · rwa [e]
    · rw [e]
      exact takeValues_keeps K ws 0 s ht h
  | readEntries =>
    exact (readEntries_cases p s).elim T fun ⟨n, _, _, e⟩ => E e (K.cursor s _ (fun _ => CursorLaw.advanced n) h)
  | retirePoint =>
    exact (retirePoint_cases p s).elim T fun ⟨k, _, e⟩ => E e (K.draft s _ (fun hd _ _ => hd.erase k) h)
  | copyRating =>
    exact (copyRating_cases p s).elim T fun ⟨_, e⟩ => E e (K.draft s _ (fun _ ha _ => ha.draft) h)
  | adoptRating => exact (adoptRating_cases p s).elim T fun ⟨_, e⟩ => E' e (K.adoptionRequest s _ h)
  | lookup => exact (lookup_cases p s).elim T A
  | defineShift =>
    exact (defineShift_cases p s).elim T fun ⟨k, lo, up, ta, _, h1, h2, h3, h4, e⟩ =>
      E e (K.band s k lo up ta h1 h2 h3 h4 h)
  | retireShift =>
    exact (retireShift_cases p s).elim T fun ⟨k, b, _, h1, h2, e⟩ => E e (K.bandRetired s k b h1 h2 h)
  | readShifts => exact (readShifts_cases p s).elim T A
  | retireVertical =>
    exact (retireVertical_cases p s).elim T fun ⟨k, _, hl, _, e⟩ =>
      E e (K.frame _ _ (startIfReady_frame _) (K.verticals s _ hl (fun hv _ => hv.erase k) h))
  | homeCarriage => exact (homeCarriage_cases p s).elim T fun ⟨_, _, _, e⟩ => E' e (K.frame _ _ (beginHoming_frame s) h)
  | clearFault =>
    exact (clearFault_cases p s).elim T fun ⟨_, e⟩ =>
      E e (K.frame _ _ (CableFrame.of_drives_kept s _ rfl rfl rfl) h)
  | setMeter => exact (setMeter_cases p s).elim T fun k => k.elim A fun ⟨m, _, _, e⟩ => E e (K.meter s m h)
  | startRun =>
    refine (startRun_cases p s).elim T fun ⟨c, _, hf, hp, _, e⟩ => E' e ?_
    unfold beginRun
    dsimp only
    have h1 := K.newRun s (armedRecord s c) (idAfter s.gauging.nextId) hf hp h
    split
    · exact K.frame _ _ (startRunning_frame _) h1
    · exact h1
  | abortRun =>
    show P (abortRunRequest p s).state
    rcases abortRunRequest_cases p s with k | ⟨_, e⟩ | ⟨_, e⟩
    · exact T k
    · exact E e (K.frame _ _ (endRun_frame _ _) h)
    · exact E e (K.frame _ _ (CableFrame.after (deliver_frame _) (abortRun_frame _ s)) h)
  | readRun => exact (readRun_cases p s).elim T A
  | acceptGauging =>
    exact (acceptGauging_cases p s).elim T fun ⟨m, q, r, _, _, _, k, e⟩ =>
      E e (K.frame _ _ (CableFrame.of_run _ _) (K.acceptance s _ m q r k h))
  | defineRule =>
    exact (defineRule_cases p s).elim T fun ⟨k, r, _, h1, h2, h3, e⟩ => E e (K.ruleDefined s k r h1 h2 (Or.inl h3) h)
  | armRule =>
    refine (armRule_cases p s).elim T fun ⟨k, r, _, h1, h2, h3, e⟩ =>
      E e (K.ruleDefined s k r.arm h1 (fun q hq => ?_) (Or.inr rfl) h)
    rw [h2] at hq
    cases hq
    exact h3
  | disarmRule => exact (disarmRule_cases p s).elim T fun ⟨k, r, _, _, _, _, e⟩ => E e (K.ruleOut s k r _ h)
  | acknowledge =>
    exact (acknowledge_cases p s).elim T fun ⟨k, _, r', _, _, _, _, e⟩ => E e (K.ruleAcknowledged s k r' h)
  | retireRule => exact (retireRule_cases p s).elim T fun ⟨k, r, _, _, _, e⟩ => E e (K.ruleOut s k r _ h)
  | readRule => exact (readRule_cases p s).elim T A

/-- A property that every edit keeps is kept by every command. -/
theorem exec_keeps {P : State → Prop} (K : Kept P) (i : Instr) (s t : State) (h : P s) (he : exec i s = .next t) :
    P t :=
  exec_preserves P K.undriven K.ignored K.slot K.overrun K.fetch (fun r p s hs h => owner_keeps K r p s hs h) K.reset
    K.quadrature K.mark K.pulse K.gate K.settling K.interval K.ramp K.adoption K.second
    (fun s h => K.frame _ _ (deliver_frame _) (K.boundary s h))
    (fun e s h => K.frame _ _ (CableFrame.after (deliver_frame _) (traverseCountChange_frame e s)) h)
    (fun e s h => K.frame _ _ (CableFrame.after (deliver_frame _) (depthCountChange_frame e s)) h)
    (fun c v s h => K.frame _ _ (deliver_frame _) (K.contact c v s h))
    (fun d s h => K.frame _ _ (CableFrame.after (deliver_frame _) (jamExpiry_frame d s)) h)
    (fun s h => K.frame _ _ (meterPulse_frame s) h) (fun s h => K.frame _ _ (dwellExpiry_frame s) h)
    (fun s h => K.frame _ _ (waitExpiry_frame s) h) K.phase i s t h he

/-- A property that every edit keeps is kept by every step. -/
theorem step_keeps {P : State → Prop} (K : Kept P) (s t : State) (h : P s) (hs : step s = .next t) : P t :=
  step_preserves P K.pending (exec_keeps K) s t h hs

end Sys2Proof.Machine
end

