-- ==== Sys2Proof/Tests/Slice0.lean ====
section
/-! SUPPORT. Tests: the checks of WellFormed, the worked numbers of the spec, at most two tests a command, and for each
statement a state and operands that meet its hypotheses. -/

open Sys2Proof Sys2Proof.Machine

namespace Sys2Proof.Tests

set_option Elab.async false

/-- The next state of a command. -/
def after (c : Instr) (s : State) : State :=
  match exec c s with
  | .next t => t
  | _ => s

/-- The answer a command leaves in the slot. -/
def answer (c : Instr) (s : State) : Option Answer := (after c s).port.slot

def done (code : Byte) (body : List Byte) : Option Answer := some { status := .done, code := code, body := body }

def refused (code why detail : Byte) : Option Answer :=
  some { status := .refused, code := code, body := [why, detail] }

/-! ### WellFormed: an ill-formed term for each check -/

theorem test_wellFormed_params : (Instr.identify (List.replicate 129 0)).wellFormed = false := by decide +kernel
theorem test_wellFormed_known_code : (Instr.unknownRequest 0x05 []).wellFormed = false := by decide +kernel
theorem test_wellFormed_unknown_length : (Instr.unknownRequest 0x7F (List.replicate 129 0)).wellFormed = false := by
  decide +kernel
theorem test_wellFormed_frame_error_fetch : (Instr.frameError (bitsOf [0x10, 0, 0])).wellFormed = false := by
  decide +kernel
theorem test_wellFormed_frame_error_whole : (Instr.frameError (bitsOf [0x00, 0x05, 0x00, 0xFB])).wellFormed = false := by
  decide +kernel
theorem test_wellFormed_overrun : (Instr.overrun (bitsOf [0x01])).wellFormed = false := by decide +kernel
theorem test_wellFormed_taken :
    (Instr.identify []).wellFormed = true ∧ (Instr.unknownRequest 0x7F []).wellFormed = true ∧
    (Instr.frameError (bitsOf [0x00, 0x05, 0x00, 0xFC])).wellFormed = true ∧
    (Instr.overrun (bitsOf [0x00, 0x05])).wellFormed = true ∧ Instr.stageIntervalExpiry.wellFormed = true := by
  decide +kernel

/-! ### The port -/

/-- A reset state with Started read away. -/
def quiet : State := State.reset.setAttention 0

/-- The pin held low, and the part it leaves. -/
def held : State := after (.reset .low) (quiet.setClock 7)

theorem test_reset :
    after (.reset (.high ResetPins.atReset)) (quiet.setClock 7) = State.reset ∧
    after (.reset (.high ResetPins.atReset)) held = State.reset ∧
    (held.resetHeld = true ∧ held.clock = 0 ∧ after .clockSecond held = held ∧ after (.identify []) held = held ∧
      held.lines = { sdo := none, attn := .high, traverseDuty := none, hoistDuty := none, traverseDir := .low,
                     hoistDir := .low, siren := .low, beacon := .low, remote := .low }) := by decide +kernel

theorem test_reset_pins :
    let s := after (.reset (.high { ResetPins.atReset with unitAddress := 5, cablewayFitted := .low })) quiet
    s.port.unitAddress = 5 ∧ s.port.attention = 0x001 ∧ s.lines.attn = .low := by decide +kernel

/-- The part after a Reset that ends within a select period. -/
def midPeriod : State := after (.reset (.high { ResetPins.atReset with select := .low })) quiet

theorem test_period_under_way_at_reset :
    midPeriod.port.ignoring = true ∧ answer (.readClock []) midPeriod = none ∧
    after (.fetchFrame 6) midPeriod = State.reset ∧
    answer (.readClock []) (after (.frameError (bitsOf [0x00, 0x05, 0x00, 0xFB])) midPeriod) = done 0x05 [0, 0, 0, 0] := by
  decide +kernel

theorem test_read_clock_exchange :
    let s := after (.frameError (bitsOf [0x00, 0x05, 0x00, 0xFB])) (quiet.setClock 0x000C3500)
    s.port.slot = done 0x05 [0x00, 0x0C, 0x35, 0x00] ∧ s.port.attention = 0x002 ∧
    (after (.fetchFrame 9) s).port.sdo = .driven [0x00, 0x01, 0x05, 0x04, 0x00, 0x0C, 0x35, 0x00, 0xB5] ∧
    (after (.fetchFrame 9) s).port.slot = none ∧ (after (.fetchFrame 8) s).port.slot = s.port.slot := by
  decide +kernel

theorem test_fetch_empty : (after (.fetchFrame 6) quiet).port.sdo = .driven [0, 0, 0, 0, 0, 0] := by decide +kernel

theorem test_ignored_period :
    after (.ignoredSelectPeriod (bitsOf [0x20, 0x05, 0x00, 0xFB])) (after (.fetchFrame 6) quiet) = quiet := by
  decide +kernel

theorem test_frame_error : answer (.frameError (bitsOf [0x00, 0x05, 0x00, 0xFC])) quiet = refused 0x05 1 0 := by
  decide +kernel

theorem test_unknown_request : answer (.unknownRequest 0x7F [1, 2]) quiet = refused 0x7F 2 0 := by decide +kernel

/-- The worked sequence of chapter 10: an answer waits, a second request overruns, a fetch empties the slot. -/
theorem test_overrun :
    let s := after (.readClock []) quiet
    let t := after (.overrun (bitsOf [0x00, 0x08, 0x00, 0xF8])) s
    t.port.slot = s.port.slot ∧ t.port.attention = 0x006 ∧ (after (.fetchFrame 20) t).port.attention = 0x004 := by
  decide +kernel

theorem test_read_attention :
    let t := after (.readAttention []) State.reset
    t.port.slot = done 0x02 [0x00, 0x01, 0x0F, 0xFD] ∧ t.port.attention = 0x002 := by decide +kernel

theorem test_set_attention_mask :
    (after (.setAttentionMask (paramBytes [0x00D])) quiet).port.mask = 0x00D ∧
    answer (.setAttentionMask (paramBytes [0x002])) quiet = refused 0x03 3 0 := by decide +kernel

theorem test_identify : answer (.identify []) quiet =
    done 0x01 [0x0B, 0x62, 0x01, 0xAE, 1, 0, 1, 4, 48, 8, 32, 16, 35] := by decide +kernel

theorem test_set_clock :
    let t := after (.setClock (paramBytes [0xFFFFFFFF])) (quiet.setClock 5)
    t.clock = 0xFFFFFFFF ∧ t.port.slot = done 0x04 [0, 0, 0, 5, 0xFF, 0xFF, 0xFF, 0xFF] ∧
    (after .clockSecond t).clock = 0 := by decide +kernel

theorem test_read_station : ((answer (.readStation []) quiet).map fun a => a.body.length) = some 111 := by
  decide +kernel

theorem test_restart :
    let t := after (.restart []) ((quiet.setCable { quiet.cable with state := .parked }).setClock 9)
    t.cable.state = .unhomed ∧ t.clock = 9 ∧ t.port.attention = 0x002 := by decide +kernel

/-! ### Settings -/

theorem test_write_settings :
    let t := after (.writeSettings (paramBytes [1, 500, 2, 4000])) quiet
    t.settings.read .stageFloor = 500 ∧ t.settings.read .stageCeiling = 4000 ∧
    t.port.slot = done 0x06 [1, 0, 0, 1, 0xF4, 2, 0, 0, 0x0F, 0xA0] := by decide +kernel

theorem test_write_settings_refused :
    answer (.writeSettings (paramBytes [3, 10, 1, 30000])) quiet = refused 0x06 3 1 ∧
    answer (.writeSettings (paramBytes [36, 0])) quiet = refused 0x06 3 0 := by decide +kernel

theorem test_read_settings :
    answer (.readSettings (paramBytes [8, 23])) quiet = done 0x07 [8, 0, 0, 0, 20, 23, 0, 0, 0, 0] ∧
    ((answer (.readSettings []) quiet).map fun a => a.body.length) = some 175 := by decide +kernel

/-! ### Level channels -/

/-- A channel placed in its slot. -/
def withRecord (i : ChannelNumber) (c : Channel) (s : State) : State := s.setChannels (s.channels.set i.val c i.isLt)

/-- The float of the worked sequence of chapter 1. -/
def float : Channel :=
  { Channel.reset .low with
    kind := .encoder, scale := 250, offset := 1000, mark := some { stage := 2400, edge := .rising },
    condition := .valid, reading := some 2395, readingTime := 81300, count := 5580 }

/-- The transducer of the worked sequence of chapter 1. -/
def transducer : Channel :=
  { Channel.reset .low with
    kind := .frequency, scale := 500, offset := -20000, condition := .valid, reading := some 2395,
    gate := some { elapsed := 10, pulses := 3 }, lastGate := some 44790 }

theorem test_mark_edge :
    let c := (after (.markEdge 1 .rising) ((withRecord 1 float quiet).setClock 81342)).channels.get 1
    c.count = 5600 ∧ c.reading = some 2400 ∧ c.readingTime = 81342 ∧ c.lastMark = some { mm := 5, time := 81342 } ∧
    c.markLine = .high ∧ c.markLevel = some .high := by decide +kernel

theorem test_quadrature_change :
    let up : QuadratureEdge := { changed := .lineA, a := .high, b := .low }
    let c := (after (.quadratureChange 1 up) (withRecord 1 { float with count := 5603 } quiet)).channels.get 1
    c.count = 5604 ∧ c.reading = some 2401 ∧
    (after (.quadratureChange 1 { up with changed := .lineB }) (withRecord 1 float quiet)).channels.get 1 =
      { float with count := 5579, reading := some 2395, readingTime := 0 } := by decide +kernel

theorem test_set_channel_stage :
    let s := (withRecord 1 { float with count := 5600, reading := some 2400 } quiet).setClock 90020
    let t := after (.setChannelStage (paramBytes [1, 2410])) s
    (t.channels.get 1).offset = 1010 ∧ (t.channels.get 1).condition = .settling ∧
    t.port.slot = done 0x11 [0, 0, 0x03, 0xE8, 0, 0, 0x03, 0xF2] ∧ t.port.attention = 0x00A := by decide +kernel

theorem test_settling_timer_expiry :
    let c : Channel := { float with offset := 1010, count := 5604, condition := .settling, reading := none,
                                    settlingTimer := some 10 }
    let t := after (.settlingTimerExpiry 1) ((withRecord 1 c quiet).setClock 90030)
    (t.channels.get 1).reading = some 2411 ∧ (t.channels.get 1).condition = .valid ∧
    (t.channels.get 1).readingTime = 90030 ∧ t.port.attention = 0x008 := by decide +kernel

theorem test_frequency_pulse :
    (((after (.frequencyPulse 2) (withRecord 2 transducer quiet)).channels.get 2).gate.map fun g => g.pulses) = some 4 := by
  decide +kernel

theorem test_gate_completion :
    let silent := (after (.gateCompletion 2) (withRecord 2 transducer quiet)).channels.get 2
    let back := (after (.gateCompletion 2)
      (withRecord 2 { silent with gate := some { elapsed := 10, pulses := 44801 } } quiet)).channels.get 2
    let valid := (after (.gateCompletion 2)
      (withRecord 2 { back with gate := some { elapsed := 10, pulses := 44803 } } quiet)).channels.get 2
    silent.condition = .silent ∧ silent.reading = none ∧ silent.lastGate = some 3 ∧ back.condition = .settling ∧
    back.settlingCount = 1 ∧ valid.settlingCount = 2 ∧ valid.condition = .valid ∧ valid.reading = some 2402 := by
  decide +kernel

theorem test_configure_channel :
    let t := after (.configureChannel (paramBytes [1, 1, 250, 1000, 2400, 1])) (quiet.setClock 3)
    t.channels.get 1 = { Channel.reset .low with
      kind := .encoder, scale := 250, offset := 1000, mark := some { stage := 2400, edge := .rising },
      condition := .settling, readingTime := 3, settlingTimer := some 0, markLevel := some .low } ∧
    answer (.configureChannel (paramBytes [2, 2, 500, 0, 0, 3])) quiet = refused 0x10 3 5 := by decide +kernel

theorem test_read_channel :
    answer (.readChannel (paramBytes [1])) (withRecord 1 float quiet) = done 0x12
      [1, 1, 0, 0, 0, 250, 0, 0, 0x03, 0xE8, 1, 0, 0, 0x09, 0x60, 2, 1, 0, 0, 0x09, 0x5B, 0, 1, 0x3D, 0x94,
       0, 0, 0, 0, 0, 0, 0, 0, 0, 0, 0x15, 0xCC, 0] ∧
    answer (.readChannel (paramBytes [4])) quiet = refused 0x12 3 0 := by decide +kernel

/-! ### Stage settlement -/

/-- A float primary that reads a stage, after a Good record at another stage with a rate, one Flood interval ended. -/
def settling (reading last rate : Int) : State :=
  let s := withRecord 0 { float with mark := none, reading := some reading } quiet
  s.setStage { s.stage with
    interval := { length := 60, cadence := .flood, elapsed := 60 },
    record := { s.stage.record with stage := some last, quality := .good, source := some 0, rate := rate } }

theorem test_stage_interval_expiry :
    let r := (after .stageIntervalExpiry (settling 3125 3100 800)).stage.record
    r.stage = some 3125 ∧ r.quality = .good ∧ r.source = some 0 ∧ r.rate = 975 ∧ r.trend = .rising ∧ r.sequence = 1 ∧
    r.cadence = .flood ∧ ((after .stageIntervalExpiry (settling 3140 3125 975)).stage.record.rate) = 957 := by
  decide +kernel

theorem test_stage_interval_expiry_lost :
    let t := after .stageIntervalExpiry (withRecord 0 { float with condition := .silent } (settling 3125 3100 800))
    t.stage.record.quality = .held ∧ t.stage.record.stage = some 3100 ∧ t.stage.heldCount = 1 ∧
    t.stage.interval = { length := 900, cadence := .quiet, elapsed := 0 } := by decide +kernel

theorem test_set_vote :
    let t := after (.setVote (paramBytes [2, 0b1010])) quiet
    t.stage.pendingSetup = some { primary := 2, checks := 0b1010 } ∧ t.stage.setup = { primary := 0, checks := 0 } ∧
    answer (.setVote (paramBytes [2, 0b0100])) quiet = refused 0x18 3 1 := by decide +kernel

/-! ### Ratings -/

/-- The points of rating 12. -/
def rating12 : List Point := [⟨150, 0⟩, ⟨400, 2500⟩, ⟨900, 18000⟩, ⟨1800, 95000⟩, ⟨3200, 390000⟩]

/-- Rating 12 active, with a band from 1,000 to 1,500 at -30 in slot 0. -/
def rated : State :=
  quiet.setRating { quiet.rating with
    active := { points := rating12, number := 12, effectiveFrom := 3456000 },
    bands := quiet.rating.bands.set 0 (some
      { state := .applied, lower := 1000, upper := 1500, target := -30, applied := -30, origin := .manual,
        changed := 0 }) }

/-- The discharge bytes and the flag of a forward lookup. -/
def dischargeAt (stage : Word) (s : State) : Option (List Byte) :=
  (answer (.lookup (paramBytes [0, stage])) s).map fun a => a.body.drop 14

theorem test_lookup :
    dischargeAt 100 rated = some [0, 0, 0, 0, 1] ∧ dischargeAt 650 rated = some [0, 0, 0x28, 0x0A, 0] ∧
    dischargeAt 1234 rated = some [0, 0, 0xAB, 0xE9, 0] ∧ dischargeAt 3500 rated = some [0, 0x06, 0xEA, 0x5E, 2] := by
  decide +kernel

theorem test_lookup_inverse :
    answer (.lookup (paramBytes [1, 50000])) rated = done 0x26 [0, 12, 0, 0, 0xC3, 0x50, 0, 0, 0x04, 0xFA] ∧
    answer (.lookup (paramBytes [1, 400000])) rated = refused 0x26 8 0 := by decide +kernel

theorem test_set_cursor :
    answer (.setCursor (paramBytes [2, 31])) quiet = done 0x20 [2, 31, 0, 0] ∧
    answer (.setCursor (paramBytes [2, 32])) quiet = refused 0x20 3 1 := by decide +kernel

/-- The worked load of chapter 3, with a draft in hand and the cursor at an index. -/
def drafted (draft : List Point) (index : Nat) (fields : List Word) : State :=
  (quiet.setRating { quiet.rating with draft := draft }).setCursor { table := .draft, index := index, fields := fields }

theorem test_write_fields :
    let t := after (.writeFields (paramBytes [18000, 1800, 95000, 3200, 390000])) (drafted (rating12.take 2) 2 [900])
    t.rating.draft = rating12 ∧ t.port.cursor.index = 5 ∧ t.port.cursor.fields = [] ∧
    t.port.slot = done 0x21 [5, 0, 5] := by decide +kernel

theorem test_write_fields_refused :
    (answer (.writeFields (paramBytes [4000, 520000])) (drafted rating12 7 [])).map (fun a => a.body) =
      some [11, 0, 2] ∧
    (answer (.writeFields (paramBytes [1800, 100000])) (drafted rating12 5 [])).map (fun a => a.body) =
      some [3, 0, 2] := by decide +kernel

theorem test_read_entries :
    let t := after (.readEntries (paramBytes [8])) (drafted rating12 5 [])
    t.port.cursor.index = 13 ∧ t.port.slot = done 0x22 ([0, 5, 5] ++ List.replicate 72 0) := by decide +kernel

theorem test_retire_point :
    let t := after (.retirePoint (paramBytes [0])) (drafted rating12 0 [])
    t.rating.draft = rating12.drop 1 ∧ t.port.slot = done 0x23 [4] := by decide +kernel

theorem test_copy_rating : (after (.copyRating []) rated).rating.draft = rating12 := by decide +kernel

theorem test_adopt_rating :
    let s := drafted rating12 5 []
    let t := after .adoptionCompletion (after (.adoptRating (paramBytes [12, 3456000, 1])) s)
    (answer (.adoptRating (paramBytes [12, 3456000, 1])) s).map (fun a => a.status) = some .accepted ∧
    t.rating.active = { points := rating12, number := 12, effectiveFrom := 3456000 } ∧
    t.rating.adoption.lastOutcome = .adopted 12 ∧ t.port.attention = 0x022 := by decide +kernel

theorem test_adoption_completion :
    let d : List Point := [⟨150, 0⟩, ⟨400, 2500⟩, ⟨900, 18000⟩, ⟨800, 95000⟩]
    let s := after (.adoptRating (paramBytes [12, 0, 1])) (drafted d 0 [])
    let t := after .adoptionCompletion s
    t.rating.adoption.lastOutcome = .rejectedOrder 3 ∧ t.rating.active.points = [] ∧ t.port.attention = 0x042 := by
  decide +kernel

/-! ### Shift bands -/

theorem test_define_shift :
    let t := after (.defineShift (paramBytes [2, 2000, 2600, 20])) (rated.setClock 501000)
    t.rating.bands.get 2 = some { state := .ramping, lower := 2000, upper := 2600, target := 20, applied := 0,
                                  origin := .manual, changed := 501000 } ∧
    answer (.defineShift (paramBytes [2, 1499, 2600, 20])) rated = refused 0x28 16 0 := by decide +kernel

theorem test_ramp_expiry :
    let s := after (.retireShift (paramBytes [0])) rated
    let rising := s.setStage { s.stage with record := { s.stage.record with trend := .rising, quality := .good } }
    let steady := s.setStage { s.stage with record := { s.stage.record with trend := .steady, quality := .good } }
    ((after .rampExpiry rising).rating.bands.get 0).map (fun b => b.applied) = some (-25) ∧
    (after .rampExpiry steady).rating.bands.get 0 = none := by decide +kernel

theorem test_retire_shift :
    (after (.retireShift (paramBytes [0])) (rated.setClock 9)).rating.bands.get 0 = some
      { state := .retiring, lower := 1000, upper := 1500, target := 0, applied := -30, origin := .manual,
        changed := 9 } := by decide +kernel

theorem test_read_shifts :
    (answer (.readShifts []) rated).map (fun a => (a.body.length, a.body.drop 168)) =
      some (174, [0x01, 0x2C, 0x01, 0x2C, 0, 0]) := by decide +kernel

/-! ### The section -/

/-- A vertical of a survey. -/
def survey (distance bed : Int) (plan : MeasurePlan) (flag : SkipFlag) : Vertical :=
  { distance := distance, bed := bed, plan := plan, skip := flag, source := .survey, soundedTime := none }

/-- The section of the low-water gauging of chapter 7. -/
def section7 : List Vertical :=
  [survey 1000 740 .single .measure, survey 3000 440 .twoPoint .measure, survey 4000 540 .single .skip,
   survey 5000 490 .threePoint .measure, survey 7000 940 .single .measure]

theorem test_write_fields_vertical :
    let s := (quiet.setVerticals section7).setCursor { table := .verticals, index := 3, fields := [] }
    (after (.writeFields (paramBytes [6000, 1200, 2, 0])) s).verticals[3]? = some (survey 6000 1200 .threePoint .measure) ∧
    (answer (.writeFields (paramBytes [10200, 1200, 2, 0])) s).map (fun a => a.body) = some [3, 0, 4] := by
  decide +kernel

theorem test_retire_vertical :
    let s := quiet.setVerticals section7
    (after (.retireVertical (paramBytes [2])) s).verticals = section7.eraseIdx 2 ∧
    answer (.retireVertical (paramBytes [4])) (s.setRun { s.run with state := .running }) = refused 0x30 5 0 := by
  decide +kernel

/-! ### The cableway -/

/-- Every contact released. -/
def released : ContactLevels := ResetPins.atReset.contacts

/-- The carriage of the worked sequence of chapter 6: settings, counts, and what it is doing. -/
def carriage (state : CarriageState) (activity : Activity) (traverse depth : Word) : State :=
  let s := quiet.setSettings ((quiet.settings.write .homeOffset (-300)).write .jamTimeout 5)
  s.setCable { s.cable with
    state := state, activity := activity, traverseCount := traverse, depthCount := depth,
    contacts := { released with top := .low } }

/-- A drive that runs in a direction. -/
def running {δ : Type} (way : δ) : Drive δ := { on := true, way := way, duty := 60, start := none, jam := 0 }

theorem test_home_carriage :
    let s := carriage .unhomed .idle 41233 0
    let t := after (.homeCarriage []) (s.setCable { s.cable with contacts := released })
    let u := after (.contactChange .top .low) t
    t.cable.state = .homing ∧ t.cable.hoist.start = some .up ∧ u.cable.activity = .homing .find ∧
    u.cable.traverse.start = some .inward ∧ u.cable.hoist.start = none := by decide +kernel

theorem test_contact_change_home :
    let s := carriage .homing (.homing .find) 41233 0
    let t := after (.contactChange .home .low) (s.setCable { s.cable with traverse := running .inward })
    t.cable.state = .parked ∧ t.cable.traverseCount = 0 ∧ t.position = -300 ∧ t.cable.traverse.on = false := by
  decide +kernel

theorem test_drive_period_boundary :
    let s := carriage .traversing (.moving (.traverseTo 7500 .outward)) 0 0
    let t := after .drivePeriodBoundary (s.setCable { s.cable with
      traverse := { s.cable.traverse with start := some .outward } })
    t.lines.traverseDuty = some 80 ∧ t.lines.traverseDir = .high ∧ t.cable.traverse.start = none := by decide +kernel

theorem test_traverse_count_change :
    let out : QuadratureEdge := { changed := .lineA, a := .high, b := .low }
    let at15589 := carriage .traversing (.moving (.traverseTo 7500 .outward)) 15589 0
    let t := after (.traverseCountChange out) (at15589.setCable { at15589.cable with traverse := running .outward })
    t.cable.state = .holding ∧ t.position = 7495 ∧ t.cable.traverse.on = false := by decide +kernel

theorem test_depth_count_change :
    let down : QuadratureEdge := { changed := .lineB, a := .low, b := .low }
    let s := carriage .lowering (.moving (.lowerTo 100 false 0 true)) 0 49
    let t := after (.depthCountChange down) (s.setCable { s.cable with hoist := running .down })
    t.cable.state = .holding ∧ t.depth = 100 ∧ t.cable.hoist.on = false := by decide +kernel

theorem test_jam :
    let s := carriage .traversing (.moving .goHome) 6596 0
    let t := after (.jam .traverse) ((s.setCable { s.cable with traverse := running .inward }).setClock 700400)
    t.cable.state = .halted ∧ t.port.attention = 0x800 ∧ t.cable.lastFault = some
      { kind := .jam .traverse, state := .traversing, position := some 2998, depth := 0, time := 700400 } := by
  decide +kernel

theorem test_clear_fault :
    let t := after (.clearFault []) (carriage .halted .idle 0 0)
    t.cable.state = .unhomed ∧ t.port.slot = done 0x39 [] ∧
    answer (.clearFault []) (carriage .parked .idle 0 0) = refused 0x39 4 0 := by decide +kernel

/-! ### Gauging runs -/

/-- A parked carriage over the section of chapter 7, the last run with id 13 and a Good stage of 1,040. -/
def gauging : State :=
  let s := (carriage .parked .idle 0 0).setVerticals section7
  let s := s.setStage { s.stage with
    record := { s.stage.record with stage := some 1040, quality := .good, source := some 0 } }
  s.setGauging { s.gauging with nextId := 14 }

/-- The run of chapter 7 under way at vertical 0, in a step, with its entry and what the carriage does. -/
def under (step : Step) (state : CarriageState) (activity : Activity) (entry : Entry) : State :=
  let s := gauging.setCable { gauging.cable with state := state, activity := activity, traverseCount := 2600 }
  s.setGauging { s.gauging with
    visit := [0, 1, 3, 4], nextId := 15,
    run := { RunRecord.none with
      id := some 14, state := .running, step := some step, current := some 0, startCondition := some .immediate,
      startTime := some 0, startStage := some 1040, results := [entry] } }

/-- The entry of vertical 0 after its sounding. -/
def sounded : Entry :=
  { Entry.blank 0 1000 with arrivalStage := some 1040, depthUsed := some 290, soundedDepth := some 290 }

theorem test_start_run :
    let t := after (.startRun (paramBytes [0])) gauging
    t.gauging.run.state = .running ∧ t.gauging.run.id = some 14 ∧ t.gauging.nextId = 15 ∧
    t.gauging.visit = [0, 1, 3, 4] ∧ t.gauging.run.step = some .traverse ∧
    t.cable.activity = .moving (.traverseTo 1000 .outward) ∧ t.attends .runStarted = true := by decide +kernel

theorem test_start_run_at_stage :
    let t := after (.startRun (paramBytes [1, 2400, 3600])) gauging
    t.gauging.run.state = .armed ∧ t.gauging.run.waitRemaining = some 3600 ∧
    (after .waitExpiry t).gauging.run.state = .expired ∧
    (after .waitExpiry t).gauging.run.endReason = some .expired := by decide +kernel

theorem test_meter_pulse :
    let d : Dwell := { length := 40, elapsed := 40, pulses := 29, surface := false }
    let s := under .dwell .holding .idle sounded
    (after .meterPulse (s.setGauging { s.gauging with dwell := some d })).gauging.dwell =
      some { d with pulses := 30 } := by decide +kernel

theorem test_dwell_expiry :
    let s := under .dwell .holding .idle sounded
    let s := s.setCable { s.cable with contacts := released }
    let t := after .dwellExpiry (s.setGauging { s.gauging with
      dwell := some { length := 40, elapsed := 40, pulses := 30, surface := false } })
    t.gauging.run.results = [{ sounded with points := [525], mean := some 525 }] ∧ t.gauging.run.step = some .stow ∧
    t.cable.state = .raising := by decide +kernel

theorem test_abort_run :
    let s := under .sound .lowering (.moving (.lowerTo 1300 true 0 false)) (Entry.blank 0 1000)
    let s := s.setCable { s.cable with contacts := released, hoist := running .down }
    let t := after (.abortRun []) s
    t.gauging.run.state = .returning ∧ t.gauging.run.endReason = some .cancelled ∧ t.cable.state = .raising ∧
    t.cable.hoist.on = false ∧ t.cable.hoist.start = some .up ∧ t.port.slot = done 0x3C [] := by decide +kernel

/-- The entries of the completed run of chapter 7. -/
def measured7 : List Entry :=
  [{ sounded with points := [525], mean := some 525 },
   { Entry.blank 1 3000 with arrivalStage := some 1045, depthUsed := some 680, soundedDepth := some 680,
                             points := [831, 1137], mean := some 984, bedUpdated := true },
   { Entry.blank 2 4000 with skipped := true },
   { Entry.blank 3 5000 with arrivalStage := some 1050, depthUsed := some 570, soundedDepth := some 570,
                             points := [933, 1035, 1239], mean := meanVelocity [933, 1035, 1239] },
   { Entry.blank 4 7000 with arrivalStage := some 1052, depthUsed := some 112, mean := some 0, dry := true }]

/-- The run of chapter 7 on its way home, on rating 12 without bands. -/
def returning7 : State :=
  let s := under .returnHome .traversing (.moving .goHome) sounded
  let s := s.setRating { s.rating with active := rated.rating.active }
  s.setRun { s.run with state := .returning, current := none, results := measured7, endTime := some 1,
                        endStage := some 1052 }

/-- The run of chapter 7 completed at the edge of Home. -/
def complete7 : State := after (.contactChange .home .low) returning7

theorem test_contact_change_completes_run :
    complete7.gauging.run.state = .complete ∧
    (complete7.gauging.run.results.map fun e => e.discharge) = [some 1523, some 13382, none, some 12095, some 0] ∧
    complete7.gauging.run.totals = some
      { measured := 27000, rated := some 30491, flag := .inRating, ratio := some 886, proposed := none } := by
  decide +kernel

theorem test_accept_gauging :
    let t := after (.acceptGauging (paramBytes [0])) (complete7.setClock 5)
    t.gauging.run.state = .accepted ∧ t.rating.bands.get 0 = some
      { state := .ramping, lower := 796, upper := 1296, target := -41, applied := 0, origin := .gauging 14,
        changed := 5 } ∧
    answer (.acceptGauging (paramBytes [0])) gauging = refused 0x3E 4 0 := by decide +kernel

theorem test_read_run :
    (answer (.readRun (paramBytes [0, 1])) complete7).map (fun a => a.body.drop 56) = some
      [0, 24, 0x1F, 0, 0, 0, 0, 0x03, 0xE8, 0, 0, 0x04, 0x10, 0x01, 0x22, 0x01, 0x22, 0x02, 0x0D, 0, 0, 0x05, 0xF3,
       1, 0x02, 0x0D] := by decide +kernel

theorem test_set_meter :
    (after (.setMeter (paramBytes [2, 15, 680, 3])) quiet).gauging.meter.pulsesPerRevolution = 2 ∧
    answer (.setMeter []) quiet = done 0x3A [1, 0, 15, 0x02, 0xA8, 3] := by decide +kernel

/-! ### Warnings -/

/-- Rule 2 of the night rise of chapter 8, in a state. -/
def nightRule (state : RuleState) : Rule :=
  { state := state, quantity := .discharge, trip := 200000, clear := 150000, tripPersistence := 2,
    clearPersistence := 4, tripCount := 1, clearCount := 0, level := 3, acknowledgeRequired := true, siren := .p3,
    flags := { floodCadence := false, cableInhibit := true, surfaceOnly := false, remoteLine := true },
    tripTime := none, peak := none, clearTime := none }

/-- A rule in its slot, with the effect set formed. -/
def withRule (k : Fin 16) (r : Rule) (s : State) : State :=
  s.setWarning (WarningUnit.form { s.warning with rules := s.warning.rules.set k.val (some r) k.isLt })

/-- The last interval of the night rise, with rule 2 in a state and rating 12 active. -/
def night (stage : Int) (r : Rule) : State :=
  withRule 2 r ((settling stage 2318 1206).setRating
    { quiet.rating with active := rated.rating.active })

theorem test_stage_interval_expiry_trips :
    let t := after .stageIntervalExpiry ((night 2331 (nightRule .armed)).setClock 820380)
    t.warning.rules.get 2 = some { nightRule .tripped with tripCount := 0, tripTime := some 820380,
                                                           peak := some 206889 } ∧
    t.warning.level = 3 ∧ t.warning.winning = .p3 ∧ t.lines.remote = .high ∧ t.attends .ruleTripped = true ∧
    t.stage.record.rate = 1100 := by decide +kernel

theorem test_stage_interval_expiry_clears :
    let t := after .stageIntervalExpiry ((night 2035 { nightRule .tripped with clearCount := 3 }).setClock 861240)
    (t.warning.rules.get 2).map (fun r => (r.state, r.clearCount, r.clearTime)) =
      some (.latched, 0, some 861240) ∧
    t.warning.level = 3 ∧ t.lines.siren = .high ∧ t.lines.remote = .low ∧ t.attends .ruleCleared = true := by
  decide +kernel

theorem test_define_rule :
    let p := paramBytes [2, 2, 200000, 150000, 2, 4, 3, 1, 3, 0xA]
    (after (.defineRule p) quiet).warning.rules.get 2 = some { nightRule .disarmed with tripCount := 0 } ∧
    answer (.defineRule p) (withRule 2 (nightRule .armed) quiet) = refused 0x40 14 0 := by decide +kernel

theorem test_arm_rule :
    (after (.armRule (paramBytes [2])) (withRule 2 (nightRule .disarmed) quiet)).warning.rules.get 2 =
      some { nightRule .armed with tripCount := 0 } ∧
    answer (.armRule (paramBytes [3])) quiet = refused 0x41 7 0 := by decide +kernel

theorem test_disarm_rule :
    let t := after (.disarmRule (paramBytes [2])) (withRule 2 (nightRule .tripped) quiet)
    t.warning.winning = .none ∧ t.warning.effects = EffectSet.empty ∧ t.warning.beacon = false ∧
    t.attends .ruleCleared = true := by decide +kernel

theorem test_acknowledge :
    let t := after (.acknowledge (paramBytes [2])) (withRule 2 (nightRule .tripped) quiet)
    let u := after (.acknowledge (paramBytes [2])) (withRule 2 (nightRule .latched) quiet)
    (t.warning.rules.get 2).map (fun r => r.state) = some .acknowledged ∧ t.lines.siren = .low ∧
    t.lines.remote = .high ∧ (u.warning.rules.get 2).map (fun r => r.state) = some .armed ∧
    answer (.acknowledge (paramBytes [3])) quiet = refused 0x43 15 0 := by decide +kernel

theorem test_retire_rule :
    let t := after (.retireRule (paramBytes [2])) (withRule 2 (nightRule .latched) quiet)
    t.warning.rules.get 2 = none ∧ t.warning.level = 0 ∧ t.port.slot = done 0x44 [] := by decide +kernel

theorem test_read_rule :
    answer (.readRule (paramBytes [2])) (withRule 2 (nightRule .armed) quiet) = done 0x45
      ([2, 2, 2, 0, 0x03, 0x0D, 0x40, 0, 0x02, 0x49, 0xF0, 2, 4, 1, 0, 3, 1, 3, 0x0A, 0] ++ List.replicate 12 0) ∧
    (answer (.readRule []) (withRule 2 (nightRule .tripped) quiet)).map (fun a => a.body.drop 4) =
      some ([3, 3] ++ List.replicate 26 0 ++ [3]) := by decide +kernel

theorem test_pattern_phase_end :
    let s := withRule 2 (nightRule .tripped) quiet
    s.lines.siren = .high ∧ (after .patternPhaseEnd s).lines.siren = .low := by decide +kernel

/-! ### What the hypotheses of the statements are met by

One theorem a statement that has hypotheses, with a conjunct for each of its clauses, at the ends of their ranges. -/

/-- A state with commands waiting. -/
def waiting (q : List Instr) (s : State) : State := s.setPending q

theorem test_meets_StepTakesTheFrontCommand :
    (waiting [.clockSecond, .rampExpiry] quiet).pending = .clockSecond :: [.rampExpiry] := rfl

theorem test_meets_EveryCommandCompletes : quiet.pending = [] := rfl

theorem test_meets_ResetGivesEveryResetValue :
    held.resetHeld = true ∧ ∀ pin, Instr.clockSecond ≠ .reset pin := ⟨rfl, fun _ h => nomatch h⟩

/-- A traverse on its way home. -/
def homeward : State :=
  let s := carriage .traversing (.moving .goHome) 6596 0
  s.setCable { s.cable with traverse := running .inward }

theorem test_meets_StepKeepsTheCarryLaw :
    let s := waiting [.drivePeriodBoundary] homeward
    CarryLaw s ∧ s.cable.traverse.on = true ∧ ∃ t, step s = .next t :=
  ⟨by unfold CarryLaw; decide +kernel, by decide +kernel, _, rfl⟩

theorem test_meets_StepKeepsTheInhibitLaw :
    let s := waiting [.drivePeriodBoundary] (withRule 2 (nightRule .tripped) homeward)
    InhibitLaw s ∧ s.inhibited = true ∧ ∃ t, step s = .next t :=
  ⟨by unfold InhibitLaw; decide +kernel, by decide +kernel, _, rfl⟩

/-- A part whose cableway is not fitted. -/
def unfitted : State := after (.reset (.high { ResetPins.atReset with cablewayFitted := .low })) quiet

theorem test_meets_StepKeepsTheStraps :
    (let s := waiting [.clockSecond] unfitted
     StrapLaw s ∧ s.fitted = false ∧ ∃ t, step s = .next t) ∧
    (∀ pins, Instr.clockSecond ≠ .reset (.high pins)) ∧ ∃ t, exec .clockSecond unfitted = .next t :=
  ⟨⟨by unfold StrapLaw; decide +kernel, by decide +kernel, _, rfl⟩, (fun _ h => nomatch h), _, rfl⟩

theorem test_meets_StepKeepsOneDrive :
    let s := waiting [.drivePeriodBoundary] homeward
    OneDriveLaw s ∧ s.cable.traverse.active = true ∧ ∃ t, step s = .next t :=
  ⟨by unfold OneDriveLaw; decide +kernel, by decide +kernel, _, rfl⟩

theorem carriageLaw_parked (s : State) (h : s.cable.activity = .idle ∧ s.cable.state = .parked ∧
    s.cable.traverse.active = false ∧ s.cable.hoist.active = false) : CarriageLaw s := by
  unfold CarriageLaw
  rw [h.1]
  exact ⟨Or.inr (Or.inl h.2.1), h.2.2⟩

theorem test_meets_StepKeepsTheCarriageLaw :
    (let s := waiting [.jam .traverse] homeward
     CarriageLaw s ∧ ArmedLaw s ∧ ∃ t, step s = .next t) ∧
    let s := waiting [.waitExpiry] (after (.startRun (paramBytes [1, 2400, 3600])) gauging)
    CarriageLaw s ∧ ArmedLaw s ∧ s.run.state = .armed ∧ ∃ t, step s = .next t :=
  ⟨⟨rfl, by unfold ArmedLaw; decide +kernel, _, rfl⟩, carriageLaw_parked _ (by decide +kernel),
    by unfold ArmedLaw; decide +kernel, by decide +kernel, _, rfl⟩

theorem test_meets_StepKeepsTheEffects :
    let s := waiting [.patternPhaseEnd] (withRule 2 (nightRule .tripped) quiet)
    EffectsLaw s ∧ PhaseLaw s ∧ s.warning.winning = .p3 ∧ ∃ t, step s = .next t :=
  ⟨by unfold EffectsLaw; decide +kernel, by unfold PhaseLaw; decide +kernel, by decide +kernel, _, rfl⟩

theorem settingsLaw_defaults : SettingsLaw Settings.defaults :=
  ⟨fun x => by cases x <;> decide +kernel, by decide +kernel, by decide +kernel, by decide +kernel, by decide +kernel⟩

theorem bandsLaw_of_slots (limit : Int) (t : ShiftTable) (h : ∀ i, ∀ b ∈ t.get i, b.lawful limit)
    (h' : ∀ i j, i ≠ j → ∀ b ∈ t.get i, ∀ c ∈ t.get j, b.upper ≤ c.lower ∨ c.upper ≤ b.lower) : BandsLaw limit t :=
  ⟨fun i b e => h i b e, fun i j b c n e e' => h' i j n b e c e'⟩

theorem bandsLaw_rated : BandsLaw 300 rated.rating.bands :=
  bandsLaw_of_slots _ _ (by unfold Band.lawful; decide +kernel) (by decide +kernel)

theorem test_meets_StepKeepsSettingsAndBands :
    let s := waiting [.rampExpiry] rated
    SettingsLaw s.settings ∧ BandsLaw (s.setting .shiftLimit) s.rating.bands ∧ ∃ t, step s = .next t :=
  ⟨settingsLaw_defaults, bandsLaw_rated, _, rfl⟩

theorem activeLaw_rating12 : ActiveLaw rating12 := Or.inr ⟨by decide, by decide, by decide⟩

theorem test_meets_StepKeepsTheRatings :
    let s := waiting [.copyRating []] ((drafted rating12 5 [7]).setRating
      { rated.rating with draft := rating12 })
    DraftLaw s.rating.draft ∧ ActiveLaw s.rating.active.points ∧ CursorLaw s.port.cursor ∧ ∃ t, step s = .next t :=
  ⟨by unfold DraftLaw; decide +kernel, activeLaw_rating12, by unfold CursorLaw; decide +kernel, _, rfl⟩

theorem test_meets_StepKeepsTheSection :
    let s := waiting [.retireVertical (beWord 4)] (quiet.setVerticals section7)
    CursorLaw s.port.cursor ∧ SectionLaw s.settings s.verticals ∧ ∃ t, step s = .next t :=
  ⟨by unfold CursorLaw; decide +kernel, by unfold SectionLaw; decide +kernel, _, rfl⟩

/-- Channel 0 a float without a mark, channel 1 with one, channel 2 a transducer, channel 3 settling. -/
def channelled : State :=
  withRecord 3 { float with condition := .settling, reading := none, settlingTimer := some 10 }
    (withRecord 2 transducer (withRecord 1 float (withRecord 0 { float with mark := none } quiet)))

theorem channelsLaw_channelled : ChannelsLaw channelled := by
  unfold ChannelsLaw Channel.lawful
  decide +kernel

theorem test_meets_StepKeepsTheChannels :
    let s := waiting [.gateCompletion 2] channelled
    ChannelsLaw s ∧ ∃ t, step s = .next t :=
  ⟨channelsLaw_channelled, _, rfl⟩

/-- Channel 0 primary, channel 2 its check, both Candidates, and the readings they show. -/
def voting (disagree : Nat) (primary check : Int) : State :=
  let s := withRecord 2 { transducer with reading := some check } (settling primary 3100 0)
  let candidate : VoteRecord := { standing := .candidate, disagree := 0, agree := 0, watch := none }
  s.setStage { s.stage with
    setup := { primary := 0, checks := 0b0100 },
    votes := (s.stage.votes.set 0 candidate).set 2 { candidate with disagree := disagree } }

theorem test_meets_StepKeepsTheVoteAndTheRecord :
    (let s := waiting [.stageIntervalExpiry] (voting 2 3100 3131)
     VoteLaw s ∧ ∃ t, step s = .next t) ∧
    let s := waiting [.stageIntervalExpiry] (voting 2 3100 3131)
    RecordLaw s.stage.record ∧ ∃ t, step s = .next t := by
  refine ⟨⟨⟨by decide +kernel, fun u h => ?_, fun i => ⟨?_, ?_, ?_, ?_, fun w h => ?_⟩⟩, _, rfl⟩, ?_, _, rfl⟩
  · exact nomatch (show (none : Option VoteSetup) = some u from h)
  · revert i; decide +kernel
  · revert i; decide +kernel
  · revert i; decide +kernel
  · revert i; decide +kernel
  · have e : ∀ i, ((voting 2 3100 3131).vote i).watch = none := by decide +kernel
    exact nomatch (e i).symm.trans h
  · unfold RecordLaw; decide +kernel

theorem test_meets_StepKeepsTheSlot :
    let s := waiting [.fetchFrame 9] (after (.readClock []) quiet)
    PortLaw s ∧ s.port.slot.isSome = true ∧ ∃ t, step s = .next t :=
  ⟨by unfold PortLaw; decide +kernel, by decide +kernel, _, rfl⟩

theorem test_meets_PeriodsWithoutARequestAndOverruns :
    (quiet.resetHeld = false ∧ quiet.port.ignoring = false ∧ ([] : List Bool).length < 8 ∧
      (List.replicate 7 true).length < 8 ∧
      (∀ a ∈ ([0x20, 5] : List Byte).head?, a.extractLsb' 5 3 ≠ quiet.port.unitAddress ∨ a.extractLsb' 0 4 ≠ 0) ∧
      (∀ a ∈ ([0x01] : List Byte).head?, a.extractLsb' 5 3 ≠ quiet.port.unitAddress ∨ a.extractLsb' 0 4 ≠ 0) ∧
      ∀ a ∈ ([] : List Byte).head?, a.extractLsb' 5 3 ≠ quiet.port.unitAddress ∨ a.extractLsb' 0 4 ≠ 0) ∧
    (quiet.port.ignoring = false ∧ quiet.port.slot = none ∧ ([true] : List Bool) ≠ [] ∧
      (let bytes := fun rest : List Byte => (quiet.port.unitAddress ++ (0 : BitVec 5)) :: rest
       (bytes [5]).length < 3 ∧ 128 < ((bytes [5, 129]).getD 2 0).toNat ∧
       (bytes [5, 0]).length ≠ ((bytes [5, 0]).getD 2 0).toNat + 4 ∧
       (bytes [5, 0, 0xFC]).foldr (· + ·) 0 ≠ 0)) ∧
    (List.replicate 128 (0 : Byte)).length ≤ 128 ∧ ∀ r : RequestName, r.code ≠ 0x7F :=
  ⟨by decide +kernel, by decide +kernel, by decide +kernel, fun r => by cases r <;> decide⟩

/-- The slot occupied by an answer. -/
def occupied : State := after (.readClock []) quiet

theorem test_meets_PeriodsWithoutARequestAndOverruns_occupied :
    occupied.resetHeld = false ∧ occupied.port.ignoring = false ∧ occupied.port.slot.isSome = true ∧
    (List.replicate 7 true).length < 8 := by decide +kernel

theorem test_meets_PeriodsWithoutARequestAndOverruns_ignoring :
    midPeriod.resetHeld = false ∧ midPeriod.port.ignoring = true := by decide +kernel

theorem test_meets_FramesCarryTheirRequests : (List.replicate 128 (0 : Byte)).length ≤ 128 := by decide +kernel

theorem test_meets_FetchFrameSendsTheAnswer :
    occupied.resetHeld = false ∧ occupied.port.ignoring = false ∧ quiet.resetHeld = false ∧
      occupied.port.slot = some { status := .done, code := 5, body := [0, 0, 0, 0] } ∧ quiet.port.ignoring = false ∧
      quiet.port.slot = none := by
  decide +kernel

theorem test_meets_RefusedRequestsChangeNothing :
    RequestName.identify ≠ .writeFields ∧ quiet.resetHeld = false ∧ quiet.port.slot = none ∧
    ∃ t a, exec (Instr.ofRequest .identify [1, 2, 3, 4]) quiet = .next t ∧ t.port.slot = some a ∧
    a.status = .refused :=
  ⟨by decide, rfl, rfl, _, { status := .refused, code := 1, body := [3, 0] }, rfl, by decide +kernel, rfl⟩

/-- Lengths that fit none of the forms of a request. -/
theorem test_meets_RefusedRequestsChangeNothing_lengths :
    quiet.resetHeld = false ∧ quiet.port.ignoring = false ∧ quiet.port.slot = none ∧
    (List.replicate 128 (0 : Byte)).length ≤ 128 ∧
    (∀ r ∈ RequestName.all, r ≠ .writeFields →
      answer (Instr.ofRequest r [0, 0, 0]) quiet = refused r.code 3 0 ∧
      answer (Instr.ofRequest r (List.replicate 128 0)) quiet = refused r.code 3 0) ∧
    answer (.startRun (paramBytes [0, 0])) quiet = refused 0x3B 3 0 ∧
    answer (.writeSettings []) quiet = refused 0x06 3 0 ∧
    answer (.writeSettings (List.replicate 72 0)) quiet = refused 0x06 3 0 ∧
    answer (.readSettings (List.replicate 68 0)) quiet = refused 0x07 3 0 := by decide +kernel

theorem test_meets_LineEventsLeaveTheRest :
    (∃ t, exec (.contactChange .home .low) returning7 = .next t) ∧
    (∃ t, exec .drivePeriodBoundary homeward = .next t) ∧
    ∀ v, Instr.contactChange .home .low ≠ .contactChange .top v :=
  ⟨⟨_, rfl⟩, ⟨_, rfl⟩, fun _ h => nomatch h⟩

theorem test_meets_PortRequestsAnswerAndSet :
    quiet.resetHeld = false ∧ quiet.port.ignoring = false ∧ quiet.port.slot = none ∧
    (0xFFD : BitVec 12).getLsbD 1 = false ∧
    (0 : BitVec 12).getLsbD 1 = false ∧
    4096 ≤ (4096 : Word).toNat ∧ (2 : Word).getLsbD 1 = true := by decide +kernel

theorem test_meets_SecondMovesTheTimers : quiet.resetHeld = false := rfl

/-! Settings. -/

/-- Eight pairs that move settings together, the ceiling to its lowest value above the floor. -/
def eightPairs : List (Setting × Int) :=
  [(.stageFloor, 500), (.stageCeiling, 501), (.quietCadence, 600), (.floodCadence, 600), (.spanStart, 1000),
   (.spanEnd, 7000), (.shiftLimit, 30), (.homeOffset, -1000)]

/-- What WRITE SETTINGS asks of some pairs on a state. -/
def settled (pairs : List (Setting × Int)) (s : State) : Prop :=
  s.resetHeld = false ∧ s.port.ignoring = false ∧ s.port.slot = none ∧ 1 ≤ pairs.length ∧ pairs.length ≤ 8 ∧
    (pairs.map fun p => p.1).Nodup ∧
  (∀ v ∈ s.verticals, (pairs.foldl (fun u p => u.write p.1 p.2) s.settings).read .spanStart ≤ v.distance ∧
    v.distance ≤ (pairs.foldl (fun u p => u.write p.1 p.2) s.settings).read .spanEnd)

theorem settingsLaw_eightPairs : SettingsLaw (eightPairs.foldl (fun u p => u.write p.1 p.2) rated.settings) :=
  ⟨fun x => by cases x <;> decide +kernel, by decide +kernel, by decide +kernel, by decide +kernel, by decide +kernel⟩

theorem bands_eightPairs (u : Settings) (h : u.read .shiftLimit = 30) :
    ∀ i b, rated.rating.bands.get i = some b →
      -u.read .shiftLimit ≤ b.target ∧ b.target ≤ u.read .shiftLimit ∧
      -u.read .shiftLimit ≤ b.applied ∧ b.applied ≤ u.read .shiftLimit := by
  rw [h]
  have : ∀ i, ∀ b ∈ rated.rating.bands.get i, -30 ≤ b.target ∧ b.target ≤ 30 ∧ -30 ≤ b.applied ∧ b.applied ≤ 30 := by
    decide +kernel
  exact this

theorem test_meets_WriteSettingsAppliesEveryPair :
    let s := rated.setVerticals section7
    let u := eightPairs.foldl (fun u p => u.write p.1 p.2) s.settings
    settled eightPairs s ∧ SettingsLaw u ∧
    (∀ i b, s.rating.bands.get i = some b →
      -u.read .shiftLimit ≤ b.target ∧ b.target ≤ u.read .shiftLimit ∧
      -u.read .shiftLimit ≤ b.applied ∧ b.applied ≤ u.read .shiftLimit) ∧
    s.cable.state = .unhomed :=
  ⟨by unfold settled; decide +kernel, settingsLaw_eightPairs, bands_eightPairs _ (by decide +kernel), rfl⟩

theorem test_meets_WriteSettingsAppliesEveryPair_traversing :
    let u := [(Setting.jamTimeout, (60 : Int))].foldl (fun u p => u.write p.1 p.2) homeward.settings
    settled [(.jamTimeout, 60)] homeward ∧ SettingsLaw u ∧ (∀ i, homeward.rating.bands.get i = none) ∧
    ∀ x ∈ [Setting.traverseCountsPerMetre, .hoistCountsPerMetre, .homeOffset], u.read x = homeward.settings.read x :=
  ⟨by unfold settled; decide +kernel,
    ⟨fun x => by cases x <;> decide +kernel, by decide +kernel, by decide +kernel, by decide +kernel,
      by decide +kernel⟩,
    by decide +kernel, by decide +kernel⟩

theorem test_meets_WriteSettingsAppliesEveryPair_limits :
    let s := channelled
    s.resetHeld = false ∧ s.port.ignoring = false ∧ s.port.slot = none ∧ ChannelsLaw s ∧ SettingsLaw s.settings ∧
    SettingsLaw (s.settings.write .stageCeiling 2395) ∧ SettingsLaw (s.settings.write .stageFloor 2396) ∧
    s.settings.read .stageCeiling ≠ 2395 ∧ s.settings.read .stageFloor ≠ 2396 ∧ SectionLaw s.settings s.verticals ∧
    BandsLaw (s.setting .shiftLimit) s.rating.bands ∧ (s.channels.get 0).reading = some 2395 :=
  ⟨rfl, rfl, rfl, channelsLaw_channelled, settingsLaw_defaults,
    ⟨fun x => by cases x <;> decide +kernel, by decide +kernel, by decide +kernel, by decide +kernel,
      by decide +kernel⟩,
    ⟨fun x => by cases x <;> decide +kernel, by decide +kernel, by decide +kernel, by decide +kernel,
      by decide +kernel⟩,
    by decide +kernel, by decide +kernel, by unfold SectionLaw; decide +kernel,
    bandsLaw_of_slots _ _ (by unfold Band.lawful; decide +kernel) (by decide +kernel), by decide +kernel⟩

/-- Checks 5 to 11 of WRITE SETTINGS on some pairs, in order, after checks 2 to 4. -/
def checked (pairs : List (Setting × Word)) (s : State) : List Bool :=
  let u := pairs.foldl (fun u p => u.write p.1 p.2.toInt) s.settings
  let limit := u.read .shiftLimit
  [decide ((pairs.map fun p => p.1).Nodup ∧ ∀ p ∈ pairs, p.1.admits p.2.toInt = true),
   decide (u.read .stageFloor < u.read .stageCeiling), decide (u.read .floodCadence ≤ u.read .quietCadence),
   decide (u.read .spanStart < u.read .spanEnd), decide (u.read .traverseSlowDuty ≤ u.read .traverseFastDuty),
   decide (∀ v ∈ s.verticals, u.read .spanStart ≤ v.distance ∧ v.distance ≤ u.read .spanEnd),
   decide (∀ i, ∀ b ∈ s.rating.bands.get i, -limit ≤ b.target ∧ b.target ≤ limit ∧ -limit ≤ b.applied ∧ b.applied ≤ limit),
   decide (s.cable.state = .unhomed ∨ s.cable.state = .parked ∨ s.cable.state = .halted ∨
     ∀ x ∈ [Setting.traverseCountsPerMetre, .hoistCountsPerMetre, .homeOffset], u.read x = s.settings.read x)]

/-- Requests that fail each check alone of those made so far, at its boundary. -/
theorem test_meets_WriteSettingsAppliesEveryPair_refused :
    let s := rated.setVerticals section7
    (s.resetHeld = false ∧ s.port.ignoring = false ∧ s.port.slot = none) ∧
    (64 < (List.replicate 128 (0 : Byte)).length ∧ (List.replicate 12 (0 : Byte)).length % 8 ≠ 0) ∧
    (¬ (36 : Word).toInt ≤ 35 ∧ ¬ 1 ≤ (0 : Word).toInt ∧ ([1, 2] : List Word).Nodup) ∧
    (Setting.stageFloor.admits 30001 = false ∧ Setting.stageFloor.admits 30000 = true) ∧
    checked [(.stageCeiling, BitVec.ofInt 32 (-2000))] s = [true, false, true, true, true, true, true, true] ∧
    checked [(.stageFloor, 30000)] s = [true, false, true, true, true, true, true, true] ∧
    checked [(.quietCadence, 599), (.floodCadence, 600)] s = [true, true, false, true, true, true, true, true] ∧
    checked [(.spanStart, 5000), (.spanEnd, 5000)] s = [true, true, true, false, true, false, true, true] ∧
    checked [(.traverseSlowDuty, 81)] s = [true, true, true, true, false, true, true, true] ∧
    checked [(.spanStart, 1001)] s = [true, true, true, true, true, false, true, true] ∧
    checked [(.shiftLimit, 29)] s = [true, true, true, true, true, true, false, true] ∧
    checked [(.homeOffset, 1)] (s.setCable { s.cable with state := .holding }) =
      [true, true, true, true, true, true, true, false] := by decide +kernel

theorem test_meets_ReportsHaveTheirLayouts :
    quiet.resetHeld = false ∧ (withRule 2 (nightRule .tripped) returning7).port.ignoring = false ∧
    (withRule 2 (nightRule .tripped) returning7).port.slot = none ∧
    1 ≤ (Setting.all.take 16).length ∧
    (Setting.all.take 16).length ≤ 16 ∧ (Setting.all.take 1).length ≤ 16 ∧ (31 : Nat) < 32 ∧ (4 : Nat) < 5 ∧
    returning7.stage.record.stage = some 1040 ∧ quiet.stage.record.stage = none ∧
    ((Setting.all.take 15).length + ([] : List Word).length < 16 ∧ (0 : Word).toInt < 1 ∧ 35 < (36 : Word).toInt) ∧
    3 < (4 : Word).toNat ∧ ((BitVec.ofInt 32 (-1)).toInt < 0 ∧ 31 < (32 : Word).toInt ∧ 15 < (16 : Word).toInt) ∧
    (0 ≤ (31 : Word).toInt ∧ (31 : Word).toInt ≤ 31 ∧ 4 < (5 : Word).toInt) := by decide +kernel

theorem test_meets_RestartEndsWhatIsUnderWay :
    returning7.resetHeld = false ∧ quiet.resetHeld = false ∧ quiet.port.ignoring = false ∧ quiet.port.slot = none ∧
    returning7.port.ignoring = false ∧ returning7.port.slot = none ∧
    returning7.gauging.run.state = .returning ∧ quiet.gauging.run.state = .none ∧
    returning7.cable.activity = .moving .goHome ∧ quiet.cable.activity = .idle ∧
    (after (.restart []) returning7).gauging.run.state = .aborted ∧
    (after (.restart []) returning7).gauging.nextId = returning7.gauging.nextId := by
  decide +kernel

/-! Level channels. -/

theorem test_meets_ConfigureStartsAChannelAfresh :
    quiet.resetHeld = false ∧ quiet.port.ignoring = false ∧ quiet.port.slot = none ∧
    (-1000000 ≤ (BitVec.ofInt 32 (-1000000)).toInt ∧ (1000000 : Word).toInt ≤ 1000000 ∧
      ¬ ((1000001 : Word).toInt ≤ 1000000)) ∧
    (1 ≤ (1 : Word).toInt ∧ (10000 : Word).toInt ≤ 10000 ∧ (100000 : Word).toInt ≤ 100000 ∧
      ¬ 1 ≤ (0 : Word).toInt ∧ ¬ (10001 : Word).toInt ≤ 10000 ∧ ¬ (100001 : Word).toInt ≤ 100000) ∧
    (-2000 ≤ (BitVec.ofInt 32 (-2000)).toInt ∧ (30000 : Word).toInt ≤ 30000 ∧ ¬ (30001 : Word).toInt ≤ 30000) ∧
    3 < (4 : Word).toNat ∧ 2 < (3 : Word).toNat ∧ (3 : Word) ≠ 0 := by decide +kernel

/-- Channel 0 at its limits: the floor and ceiling at 500 and 4,000. -/
def limited (c : Channel) : State :=
  let s := withRecord 0 c quiet
  s.setSettings ((s.settings.write .stageFloor 500).write .stageCeiling 4000)

theorem test_meets_SetChannelStageMovesTheOffset :
    let s := limited { float with count := 0 }
    let far := limited { float with count := -4000000 }
    s.resetHeld = false ∧ far.resetHeld = false ∧ s.port.ignoring = false ∧ s.port.slot = none ∧
    far.port.ignoring = false ∧ far.port.slot = none ∧
    (far.channels.get 0).condition = .valid ∧ ((2400 : Word).toInt ≤ 30000 ∧ -2000 ≤ (2400 : Word).toInt) ∧
    3 < (4 : Word).toNat ∧ (-2000 ≤ (BitVec.ofInt 32 (-2000)).toInt ∧ (BitVec.ofInt 32 (-2001)).toInt < -2000) ∧
    ((30000 : Word).toInt ≤ 30000 ∧ 30000 < (30001 : Word).toInt) ∧
    (quiet.channels.get 0).condition ≠ .valid ∧ (s.channels.get 0).condition = .valid ∧
    (499 : Word).toInt < s.settings.read .stageFloor ∧ s.settings.read .stageCeiling < (4001 : Word).toInt ∧
    1000000 < (500 : Word).toInt - roundHalfUp ((far.channels.get 0).count.toInt * (far.channels.get 0).scale) 1000 ∧
    (s.settings.read .stageFloor ≤ (500 : Word).toInt ∧ (4000 : Word).toInt ≤ s.settings.read .stageCeiling ∧
      -1000000 ≤ (500 : Word).toInt - roundHalfUp ((s.channels.get 0).count.toInt * (s.channels.get 0).scale) 1000 ∧
      (4000 : Word).toInt - roundHalfUp ((s.channels.get 0).count.toInt * (s.channels.get 0).scale) 1000 ≤ 1000000) := by
  decide +kernel

/-- The edge on which both lines changed. -/
def bothLines : QuadratureEdge := { changed := .both, a := .high, b := .high }

theorem test_meets_QuadratureAndMarkEdgesMoveTheCount :
    quiet.resetHeld = false ∧ channelled.resetHeld = false ∧ ((quiet.channels.get 0).kind ≠ .encoder ∧
     bothLines.changed = .both) ∧
    ((channelled.channels.get 3).kind = .encoder ∧ (channelled.channels.get 3).condition = .settling) ∧
    ((channelled.channels.get 1).kind = .encoder ∧ (channelled.channels.get 1).condition = .valid) ∧
    ((withRecord 0 { float with condition := .outOfRange } quiet).channels.get 0).condition = .outOfRange := by
  decide +kernel

theorem test_meets_QuadratureAndMarkEdgesMoveTheCount_marks :
    let m : Mark := { stage := 2400, edge := .rising }
    ((channelled.channels.get 2).kind ≠ .encoder ∧ (channelled.channels.get 0).mark = none) ∧
    ((channelled.channels.get 1).kind = .encoder ∧ (channelled.channels.get 1).mark = some m ∧
      (channelled.channels.get 1).condition = .valid) ∧
    ((channelled.channels.get 3).mark = some m ∧ (channelled.channels.get 3).condition = .settling) ∧
    ¬ (m.edge = .both ∨ (m.edge = .rising ∧ Edge.falling = .rising) ∨ (m.edge = .falling ∧ Edge.falling = .falling)) ∧
    (m.edge = .both ∨ (m.edge = .rising ∧ Edge.rising = .rising) ∨ (m.edge = .falling ∧ Edge.rising = .falling)) := by
  decide +kernel

/-- A frequency channel in a condition, with a settling count and pulses in its gate. -/
def gated (condition : Condition) (settlingCount pulses : Nat) : State :=
  withRecord 2 { transducer with
    condition := condition, settlingCount := settlingCount, gate := some { elapsed := 10, pulses := pulses } } quiet

theorem test_meets_ChannelTimersAndPulses :
    channelled.resetHeld = false ∧ (gated .settling 0 9).resetHeld = false ∧
    (channelled.channels.get 3).settlingTimer = some 10 ∧
    (let c := (gated .settling 0 9).channels.get 2
     c.kind = .frequency ∧ c.gate = some { elapsed := 10, pulses := 9 } ∧ c.condition = .settling ∧
     ((9 : Nat) : Int) < quiet.settings.read .minimumPulses) ∧
    (let c := (gated .settling 0 10).channels.get 2
     c.condition = .settling ∧ ¬ (((10 : Nat) : Int) < quiet.settings.read .minimumPulses) ∧ c.settlingCount = 0) ∧
    (let c := (gated .settling 1 1000000).channels.get 2
     c.condition = .settling ∧ ¬ (((1000000 : Nat) : Int) < quiet.settings.read .minimumPulses) ∧
     c.settlingCount = 1) ∧
    ((gated .valid 2 9).channels.get 2).condition = .valid ∧ ((gated .outOfRange 2 10).channels.get 2).condition = .outOfRange ∧
    ((gated .silent 0 9).channels.get 2).condition = .silent := by decide +kernel

/-! Stage settlement. -/

theorem test_meets_SetVoteLeavesAPendingSetup :
    quiet.resetHeld = false ∧ quiet.port.ignoring = false ∧ quiet.port.slot = none ∧
    (0b1000 : BitVec 4).getLsbD 3 = true ∧
    (0b0111 : BitVec 4).getLsbD 3 = false ∧ (3 < (4 : Word).toNat ∧ 15 < (16 : Word).toNat) ∧
    (0 : BitVec 4).getLsbD 3 = false := by decide +kernel

/-- Whether a channel is usable after the settlement of a state. -/
def usable (s : State) (i : ChannelNumber) : Bool :=
  (s.channels.get i).condition == .valid && ((after .stageIntervalExpiry s).stage.votes.get i).standing == .candidate

theorem test_meets_StageIsChosenFromTheVote :
    (voting 0 3100 3131).resetHeld = false ∧ quiet.resetHeld = false ∧ (usable (voting 0 3100 3131) 0 = true) ∧
    (let s := withRecord 0 { float with condition := .silent } (voting 0 3100 3131)
     usable s 0 = false ∧ (2 : ChannelNumber) ≠ (after .stageIntervalExpiry s).stage.setup.primary ∧
     (after .stageIntervalExpiry s).stage.setup.checks.getLsbD 2 = true ∧ usable s 2 = true ∧
     ∀ j, j < 2 → j ≠ (after .stageIntervalExpiry s).stage.setup.primary →
       (after .stageIntervalExpiry s).stage.setup.checks.getLsbD j.val = true → usable s j = false) ∧
    (let s := withRecord 0 { float with condition := .silent } (settling 3125 3100 800)
     (∀ i, usable s i = false) ∧ s.stage.record.stage = some 3100 ∧
     ((3 : Nat) : Int) < s.settings.read .holdLimit ∧ s.settings.read .holdLimit ≤ ((4 : Nat) : Int) ∧
     s.stage.record.quality ≠ .none) ∧
    ((∀ i, usable quiet i = false) ∧ quiet.stage.record.stage = none) ∧
    ((withRule 2 (nightRule .tripped) quiet).warning.effects.floodCadence = [] ∧
      returning7.gauging.run.state = .returning) := by decide +kernel

theorem test_meets_RateAndTrendOfTheNewRecord :
    let s := settling 3125 3100 800
    let t := after .stageIntervalExpiry s
    let lost := withRecord 0 { float with condition := .silent } s
    s.resetHeld = false ∧ lost.resetHeld = false ∧ (s.stage.record.stage = some 3100 ∧
     t.stage.record.stage = some 3125 ∧ s.stage.record.quality ≠ .held ∧
      t.stage.record.quality ≠ .held) ∧
    quiet.stage.record.stage = none ∧ (after .stageIntervalExpiry lost).stage.record.quality = .held := by
  decide +kernel

/-- A float primary that stands still while the stage has moved. -/
def still (settlements : Nat) (now : Int) : State :=
  let s := settling now now 0
  let v : VoteRecord :=
    { standing := .candidate, disagree := 2, agree := 0,
      watch := some { count := 5580, stage := some 3000, settlements := settlements } }
  s.setStage { s.stage with votes := s.stage.votes.set 0 v }

/-- Channel 0 a transducer and primary, channels 1 and 2 its checks, with their readings and records. -/
def trio (readings : List Int) (records : List VoteRecord) : State :=
  let put := fun (i : ChannelNumber) => withRecord i { transducer with reading := readings[i.val]? }
  let s := put 2 (put 1 (put 0 (settling 3100 3100 0)))
  let v := fun k => (records[k]?).getD (VoteRecord.fresh .check)
  s.setStage { s.stage with
    setup := { primary := 0, checks := 0b0110 },
    votes := ((s.stage.votes.set 0 (v 0)).set 1 (v 1)).set 2 (v 2) }

/-- A vote record with counts. -/
def counted (standing : Standing) (disagree agree : Nat) : VoteRecord :=
  { standing := standing, disagree := disagree, agree := agree, watch := none }

/-- What the channels' clauses ask of a state: the setup in force and no float. -/
def compares (s : State) : Bool := decide (
  s.resetHeld = false ∧ s.stage.pendingSetup = none ∧ 1 ≤ s.settings.read .votePersistence ∧
  0 ≤ s.settings.read .agreementBand ∧ s.stage.setup.primary = 0 ∧ s.stage.setup.checks = 0b0110 ∧
  ∀ i : ChannelNumber, i ≠ 3 → (s.channels.get i).kind = .frequency ∧ (s.channels.get i).condition = .valid)

/-- A comparison at the ends of the agreement band, with the primary as reference, and counts at the persistence. -/
theorem test_meets_ChannelsAreComparedAndFloatsWatched :
    (let s := trio [3100, 3130, 3131] [counted .candidate 0 0, counted .disagreeing 0 2, counted .candidate 2 0]
     compares s ∧ s.settings.read .votePersistence = 3 ∧ s.settings.read .agreementBand = 30) ∧
    (let s := trio [3100, 3130, 3131] [counted .candidate 0 0, counted .disagreeing 0 1, counted .candidate 1 0]
     compares s ∧ (min 15 (1 + 1) : Nat) < s.settings.read .votePersistence) ∧
    (let s := trio [3131, 3100, 3130] [counted .disagreeing 0 0, counted .candidate 0 0, counted .disagreeing 0 0]
     compares s ∧ (s.stage.votes.get 0).standing ≠ .candidate ∧ (s.stage.votes.get 1).standing = .candidate) := by
  decide +kernel

/-- Channels that are not compared: a check that acts as the reference, one that is not Valid, and every one when none is
usable; a check that is a float and is compared; and a Stuck channel that is no float. -/
theorem test_meets_ChannelsAreComparedAndFloatsWatched_kept :
    (let s := trio [3131, 3100, 3130] [counted .disagreeing 0 0, counted .candidate 4 0, counted .disagreeing 0 1]
     compares s ∧ (s.stage.votes.get 0).standing ≠ .candidate ∧
     (after .stageIntervalExpiry s).stage.votes.get 1 = counted .candidate 4 0) ∧
    (let s := trio [3131, 3100, 3130] [counted .disagreeing 2 0, counted .disagreeing 0 2, counted .disagreeing 0 1]
     compares s ∧ ∀ i : ChannelNumber, i ≠ 3 → (after .stageIntervalExpiry s).stage.votes.get i = s.stage.votes.get i) ∧
    (let s := withRecord 1 { transducer with condition := .outOfRange }
       (trio [3100, 3100, 3130] [counted .candidate 0 0, counted .disagreeing 0 2, counted .stuck 3 0])
     (s.channels.get 1).condition ≠ .valid ∧ (s.stage.votes.get 1).standing = .disagreeing ∧
     (s.channels.get 2).kind ≠ .encoder ∧ (s.stage.votes.get 2).standing = .stuck ∧
     (after .stageIntervalExpiry s).stage.votes.get 2 = counted .candidate 0 0) ∧
    (let s := withRecord 1 { float with mark := none, reading := some 3130 }
       (trio [3100, 3130, 3131] [counted .candidate 0 0, counted .disagreeing 0 1, counted .candidate 1 0])
     (s.channels.get 1).kind = .encoder ∧ (s.channels.get 1).condition = .valid ∧
     (after .stageIntervalExpiry s).stage.votes.get 1 =
       { counted .disagreeing 0 2 with watch := some (startWatch 5580 (some 3100)) }) := by decide +kernel

/-- Two checks that agree and demote the primary, with its count below the persistence and at it, and two that do
not. -/
theorem test_meets_ChannelsAreComparedAndFloatsWatched_demotion :
    (let s := trio [3100, 3131, 3131] [counted .candidate 1 0, counted .candidate 0 0, counted .candidate 0 0]
     compares s ∧ (∀ i : ChannelNumber, i = 1 ∨ i = 2 → 30 < (((s.channels.get i).reading.getD 0 - 3100).natAbs : Int)) ∧
     (min 15 (1 + 1) : Nat) < s.settings.read .votePersistence ∧
     s.settings.read .votePersistence ≤ (min 15 (2 + 1) : Nat)) ∧
    compares (trio [3100, 3131, 3131] [counted .candidate 2 0, counted .candidate 0 0, counted .candidate 0 0]) ∧
    compares (trio [3100, 3131, 3130] [counted .candidate 2 0, counted .candidate 0 0, counted .candidate 0 0]) ∧
    ((after .stageIntervalExpiry
      (trio [3100, 3131, 3131] [counted .candidate 2 0, counted .candidate 0 0, counted .candidate 0 0])).stage.votes.get
        0).standing = .disagreeing := by
  decide +kernel

/-- A pending setup that makes a check the primary and the primary a check, and one that takes a check out of the vote. -/
theorem test_meets_ChannelsAreComparedAndFloatsWatched_pending :
    let s := trio [3100, 3130, 3131] [counted .candidate 0 1, counted .disagreeing 2 2, counted .candidate 1 0]
    let under := fun (u : VoteSetup) => s.setStage { s.stage with pendingSetup := some u }
    let t := after .stageIntervalExpiry (under { primary := 1, checks := 0b0101 })
    let u := after .stageIntervalExpiry (under { primary := 0, checks := 0b0010 })
    compares s ∧
    (∀ i : ChannelNumber, t.stage.votes.get i =
      [counted .candidate 0 1, counted .candidate 0 0, counted .candidate 0 1, counted .excluded 0 0].getD i.val
        (counted .stuck 0 0)) ∧
    t.attends .channelChanged = true ∧ u.stage.votes.get 2 = counted .excluded 0 0 ∧
    u.stage.votes.get 1 = counted .candidate 0 0 ∧ u.attends .channelChanged = true := by decide +kernel

/-- The watch of a float that starts, starts again, stands still short of the limit and at it, and a Stuck float. -/
theorem test_meets_ChannelsAreComparedAndFloatsWatched_watch :
    (let s := still 11 3031
     s.resetHeld = false ∧ s.stage.pendingSetup = none ∧ 1 ≤ s.settings.read .votePersistence ∧
     0 ≤ s.settings.read .agreementBand ∧ (s.channels.get 0).kind = .encoder ∧ (s.stage.votes.get 0).standing = .candidate ∧
     (s.stage.votes.get 0).watch = some { count := 5580, stage := some 3000, settlements := 11 } ∧
     (s.channels.get 0).count = 5580 ∧ s.stage.record.stage = some 3031 ∧
     s.settings.read .stuckLimit ≤ (min 255 (11 + 1) : Nat) ∧
     s.settings.read .agreementBand < ((3031 - 3000 : Int).natAbs : Int)) ∧
    ((settling 3100 3100 0).stage.votes.get 0).watch = none ∧ (5580 : Word) ≠ 5581 ∧
    ((after .stageIntervalExpiry (still 11 3031)).stage.votes.get 0).standing = .stuck ∧
    ((after .stageIntervalExpiry (still 10 3031)).stage.votes.get 0).standing = .candidate ∧
    (let s := after .stageIntervalExpiry (still 11 3031)
     (s.channels.get 0).kind = .encoder ∧ (s.stage.votes.get 0).standing = .stuck ∧
     (s.stage.votes.get 0).watch.isSome = true ∧ s.stage.pendingSetup = none) := by decide +kernel

/-- Rule 3, on the stage, in a state with its counts. -/
def stageRule (state : RuleState) (tripCount clearCount : Nat) : Rule :=
  { nightRule state with quantity := .stage, trip := 2300, clear := 2200, tripCount := tripCount,
                         clearCount := clearCount, peak := some 2250 }

/-- The stage the settlement of a state gives, with the value of rule 3. -/
def evaluated (r : Rule) (v : Int) : Prop :=
  let s := withRule 3 r (settling v 2318 1206)
  s.resetHeld = false ∧ s.warning.rules.get 3 = some r ∧ (after .stageIntervalExpiry s).stage.record.quality ≠ .none ∧
  (after .stageIntervalExpiry s).stage.record.stage = some v

theorem test_meets_RulesAreEvaluatedAtAPublication :
    (withRule 3 (stageRule .armed 0 0) quiet).resetHeld = false ∧
    (withRule 3 (stageRule .armed 0 0) quiet).warning.rules.get 3 = some (stageRule .armed 0 0) ∧
    (after .stageIntervalExpiry (withRule 3 (stageRule .armed 0 0) quiet)).stage.record.quality = .none ∧
    evaluated (stageRule .disarmed 0 0) 2300 ∧ evaluated (stageRule .armed 1 0) 2299 ∧
    evaluated (stageRule .latched 0 0) 2300 ∧ evaluated (stageRule .armed 1 0) 2300 ∧
    evaluated (stageRule .tripped 0 2) 2201 ∧ evaluated (stageRule .acknowledged 0 2) 2200 ∧
    evaluated (stageRule .tripped 0 3) 2200 ∧
    (let r : Rule := { stageRule .armed 1 0 with quantity := .discharge }
     let t := after .stageIntervalExpiry (withRule 3 r (settling 2300 2318 1206))
     t.stage.record.stage = some 2300 ∧ (forwardLookup t 2300).flag = .noRating ∧
     t.warning.rules.get 3 = some r) := by
  unfold evaluated
  decide +kernel

/-! The cursor, the ratings, the bands and the section. -/

theorem test_meets_SetCursorPlacesTheCursor :
    quiet.resetHeld = false ∧ quiet.port.ignoring = false ∧ quiet.port.slot = none ∧ 2 < (3 : Word).toNat ∧
    ((2 : Word).toNat ≤ 2 ∧ (BitVec.ofInt 32 (-1)).toInt < 0 ∧ 31 < (32 : Word).toInt ∧ 47 < (48 : Word).toInt) ∧
    ((1 : Word) = BitVec.ofInt 32 Table.active.code ∧ 0 ≤ (0 : Word).toInt ∧ (47 : Word).toInt ≤ 47 ∧
      (2 : Word) = BitVec.ofInt 32 Table.verticals.code ∧ (31 : Word).toInt ≤ 31) := by decide +kernel

/-- The cursor on the section table, with fields. -/
def onSection (index : Nat) (fields : List Word) (s : State) : State :=
  (s.setVerticals section7).setCursor { table := .verticals, index := index, fields := fields }

theorem test_meets_WriteFieldsFillsAndCommits :
    (let c := (onSection 0 [1, 2] quiet).port.cursor
     quiet.resetHeld = false ∧ c.table ≠ .active ∧ c.fields.length + 1 < c.table.fieldCount) ∧
    (let s := drafted rating12 4 [30000]
     s.resetHeld = false ∧ s.port.ignoring = false ∧ s.port.slot = none ∧ s.port.cursor.table = .draft ∧
     s.port.cursor.fields = [30000] ∧
     (s.settings.read .stageFloor ≤ (30000 : Word).toInt ∧ (30000 : Word).toInt ≤ s.settings.read .stageCeiling) ∧
     (0 ≤ (16000000 : Word).toInt ∧ (16000000 : Word).toInt ≤ 16000000 ∧ ¬ (16000001 : Word).toInt ≤ 16000000) ∧
     (∀ k : Fin 5, k.val ≠ 4 → ∀ q ∈ s.rating.draft[k.val]?, q.stage ≠ 30000) ∧ 4 ≤ s.rating.draft.length ∧
     ((drafted rating12 4 [1800]).rating.draft[3]?.map fun q => q.stage) = some 1800 ∧
     (drafted rating12 6 [30000]).rating.draft.length < 6 ∧
     ¬ (s.settings.read .stageFloor ≤ (30001 : Word).toInt ∧ (30001 : Word).toInt ≤ s.settings.read .stageCeiling)) ∧
    ((quiet.setCursor { table := .active, index := 0, fields := [] }).port.cursor.table = .active) ∧
    ((List.replicate 128 (0 : Byte)).length ≤ 128 ∧ 64 < (List.replicate 68 (0 : Byte)).length ∧
      ([1] : List Byte).length % 4 ≠ 0) := by decide +kernel

theorem test_meets_WriteFieldsFillsAndCommits_verticals :
    let s := onSection 3 [6000, 30000, 2] quiet
    s.resetHeld = false ∧ s.port.ignoring = false ∧ s.port.slot = none ∧ s.port.cursor.table = .verticals ∧
    s.port.cursor.fields = [6000, 30000, BitVec.ofInt 32 MeasurePlan.threePoint.code] ∧
    (1 : Word) = BitVec.ofInt 32 SkipFlag.skip.code ∧ s.gauging.run.state = .none ∧
    returning7.gauging.run.state = .returning ∧
    (s.settings.read .spanStart ≤ (6000 : Word).toInt ∧ (6000 : Word).toInt ≤ s.settings.read .spanEnd ∧
      s.settings.read .spanEnd < (s.settings.read .spanEnd + 1)) ∧
    ((30000 : Word).toInt ≤ 30000 ∧ ¬ (30001 : Word).toInt ≤ 30000 ∧ 3 < (4 : Word).toNat ∧ (3 : Word).toNat ≤ 3 ∧
      1 < (2 : Word).toNat) ∧
    (3 ≤ s.verticals.length ∧ s.verticals.length < 6 ∧ s.verticals[3 - 1]?.map (fun v => v.distance) = some 4000 ∧
      s.verticals[3 + 1]?.map (fun v => v.distance) = some 7000 ∧ ¬ (4000 : Int) < (4000 : Word).toInt) ∧
    ¬ RunReady { s with verticals := s.verticals } :=
  ⟨rfl, rfl, rfl, rfl, rfl, by decide, rfl, rfl, by decide +kernel, by decide +kernel, by decide +kernel,
    fun h => RunState.noConfusion h.1⟩

theorem next_of_after {c : Instr} {s t : State} (h : after c s = t) (e : ∃ u, exec c s = .next u) :
    exec c s = .next t := by
  obtain ⟨u, e⟩ := e
  unfold after at h
  rw [e] at h
  rw [e, ← h]

/-- Requests of several values: the first refused, and the first taken with a rest that is taken or refused. -/
theorem test_meets_WriteFieldsFillsAndCommits_values :
    (let s := drafted rating12 4 [30001]
     s.resetHeld = false ∧ s.port.ignoring = false ∧ s.port.slot = none ∧ ([18000] : List Word) ≠ [] ∧
     ∃ (t : State) (body : List Byte), exec (.writeFields (beWord 0)) s = .next (t.answered .refused 0x21 body)) ∧
    (let s := drafted (rating12.take 2) 2 [900]
     let t := (s.withDraft (rating12.take 3)).setCursor { table := .draft, index := 3, fields := [] }
     let u := t.setCursor { table := .draft, index := 3, fields := [1800] }
     t.port.slot = none ∧ t.port.sdo = s.port.sdo ∧ t.attends .answerReady = s.attends .answerReady ∧
     exec (.writeFields (beWord 18000)) s = .next (t.answered .done 0x21 [3, 0, 1]) ∧
     exec (.writeFields (paramBytes [1800])) t = .next (u.answered .done 0x21 ([3, 1] ++ [1]))) ∧
    (List.replicate 15 (0 : Word)).length ≤ 15 := by
  refine ⟨⟨rfl, rfl, rfl, by decide, (drafted rating12 4 []), [3, 0, 1], ?_⟩, ⟨rfl, rfl, rfl, ?_, ?_⟩, by decide⟩ <;>
    exact next_of_after (by decide +kernel) ⟨_, rfl⟩

theorem test_meets_ReadEntriesReadsFromTheCursor :
    quiet.resetHeld = false ∧ quiet.port.ignoring = false ∧ quiet.port.slot = none ∧ 1 ≤ 8 ∧
    ((0 : Word).toInt < 1 ∧ 8 < (9 : Word).toInt) ∧
    (drafted rating12 5 [7]).port.cursor.fields ≠ [] ∧
    ((drafted rating12 47 []).port.cursor.fields = [] ∧ (drafted rating12 47 []).port.cursor.table = .draft) ∧
    (quiet.setCursor { table := .active, index := 0, fields := [] }).port.cursor.table = .active ∧
    (onSection 31 [] quiet).port.cursor.table = .verticals := by decide +kernel

theorem test_meets_RetirePointAndCopyRating :
    let s := drafted rating12 0 []
    s.resetHeld = false ∧ s.port.ignoring = false ∧ s.port.slot = none ∧ (BitVec.ofInt 32 (-1)).toInt < 0 ∧
    47 < (48 : Word).toInt ∧
    (0 ≤ (47 : Word).toInt ∧ (47 : Word).toInt ≤ 47 ∧ (s.rating.draft.length : Int) ≤ (5 : Word).toInt) ∧
    (0 ≤ (0 : Word).toInt ∧ (4 : Word).toInt < s.rating.draft.length) := by decide +kernel

/-- An adoption in flight over a draft. -/
def adopting (draft : List Point) : State :=
  let s := drafted draft 0 []
  s.setRating { s.rating with
    adoption := { s.rating.adoption with request := some { number := 12, effectiveFrom := 5, option := .clear } } }

theorem test_meets_AdoptionAdoptsOrRejects :
    (quiet.resetHeld = false ∧ (adopting []).resetHeld = false ∧ (adopting []).port.ignoring = false ∧
      (adopting []).port.slot = none ∧ quiet.port.ignoring = false ∧ quiet.port.slot = none ∧
      quiet.rating.adoption.request = none ∧ 65535 < (65536 : Word).toNat ∧
      (65535 : Word).toNat ≤ 65535 ∧ 1 < (2 : Word).toNat ∧ (adopting []).rating.adoption.request ≠ none) ∧
    ((adopting (rating12.take 1)).rating.draft.length < 2) ∧
    (let d : List Point := [⟨150, 0⟩, ⟨400, 2500⟩, ⟨400, 2501⟩]
     (adopting d).rating.draft[1]? = some ⟨400, 2500⟩ ∧ (adopting d).rating.draft[2]? = some ⟨400, 2501⟩ ∧
     ¬ ((400 : Int) < 400 ∧ (2500 : Int) < 2501) ∧ (adopting d).rating.draft[0]? = some ⟨150, 0⟩ ∧
     ((150 : Int) < 400 ∧ (0 : Int) < 2500)) ∧
    (2 ≤ (adopting (rating12.take 2)).rating.draft.length ∧
      ∀ k : Fin 1, ∀ p ∈ (adopting (rating12.take 2)).rating.draft[k.val]?,
        ∀ q ∈ (adopting (rating12.take 2)).rating.draft[k.val + 1]?, p.stage < q.stage ∧
        p.discharge < q.discharge) := by
  decide +kernel

theorem test_meets_LookupReadsTheRating_refused :
    rated.resetHeld = false ∧ rated.port.ignoring = false ∧ rated.port.slot = none ∧ 1 < (2 : Word).toNat ∧
    (BitVec.ofInt 32 (-2001)).toInt < -2000 ∧
    30000 < (30001 : Word).toInt ∧ (BitVec.ofInt 32 (-1)).toInt < 0 ∧ 16000000 < (16000001 : Word).toInt ∧
    answer (.lookup (paramBytes [1, 16000001])) rated = refused 0x26 3 1 := by decide +kernel

theorem test_meets_LookupReadsTheRating :
    (rated.resetHeld = false ∧ quiet.resetHeld = false) ∧ rated.port.ignoring = false ∧ rated.port.slot = none ∧
    BandsLaw (rated.settings.read .shiftLimit) rated.rating.bands ∧
    ActiveLaw rated.rating.active.points ∧
    ((rated.rating.bands.get 0).map (fun b => (b.applied, b.lower, b.upper)) = some (-30, 1000, 1500)) ∧
    ((-2000 ≤ (BitVec.ofInt 32 (-2000)).toInt ∧ (30000 : Word).toInt ≤ 30000) ∧ quiet.rating.active.points = [] ∧
      rated.rating.active.points = ⟨150, 0⟩ :: rating12.drop 1 ∧
      ((1000 : Int) ≤ (1000 : Word).toInt ∧ (1499 : Word).toInt < 1500 ∧ (1500 : Int) ≤ (1500 : Word).toInt)) ∧
    (rated.rating.active.points[0]? = some ⟨150, 0⟩ ∧ rated.rating.active.points[1]? = some ⟨400, 2500⟩ ∧
      rated.rating.active.points[3]? = some ⟨1800, 95000⟩ ∧ rated.rating.active.points[4]? = some ⟨3200, 390000⟩ ∧
      (150 : Int) < 151 ∧ (400 : Int) ≤ 400 ∧ 3 + 2 = rated.rating.active.points.length ∧ (3200 : Int) < 3201) ∧
    ((16000000 : Word).toInt ≤ 16000000 ∧ 0 ≤ (0 : Word).toInt ∧
      (∀ p ∈ rated.rating.active.points, p.discharge < (390001 : Word).toInt) ∧
      (∀ p ∈ rated.rating.active.points.head?, p.discharge = (0 : Word).toInt) ∧
      ((2500 : Int) < (2501 : Word).toInt ∧ (18000 : Word).toInt ≤ 18000)) :=
  ⟨⟨rfl, rfl⟩, rfl, rfl, bandsLaw_rated, activeLaw_rating12, by decide +kernel, by decide +kernel, by decide +kernel,
    by decide +kernel⟩

theorem test_meets_BandsAreDefinedRetiredAndRamped :
    (rated.resetHeld = false ∧ rated.port.ignoring = false ∧ rated.port.slot = none ∧
    (-2000 ≤ (BitVec.ofInt 32 (-2000)).toInt) ∧
     (30000 : Word).toInt ≤ 30000) ∧
    ((0 ≤ (7 : Word).toInt ∧ (7 : Word).toInt ≤ 7) ∧ ¬ 0 ≤ (BitVec.ofInt 32 (-1)).toInt ∧ ¬ (8 : Word).toInt ≤ 7) ∧
    (¬ -2000 ≤ (BitVec.ofInt 32 (-2001)).toInt ∧ ¬ (30001 : Word).toInt ≤ 30000 ∧
      (1000 : Word).toInt ≤ (1000 : Word).toInt) ∧
    rated.settings.read .shiftLimit < ((301 : Word).toInt.natAbs : Int) ∧
    ((BitVec.ofInt 32 (-300)).toInt.natAbs : Int) ≤ rated.settings.read .shiftLimit ∧
    ((rated.rating.bands.get 0).map (fun b => decide ((1499 : Int) < b.upper ∧ b.lower < 2600)) = some true) ∧
    (∀ j, j ≠ 2 → ∀ b ∈ rated.rating.bands.get j, (1000 : Int) ≤ b.lower ∨ b.upper ≤ 500) ∧
    (rated.rating.bands.get 7 = none ∧ (rated.rating.bands.get 0).map (fun b => b.state) = some .applied ∧
      ((after (.retireShift (paramBytes [0])) rated).rating.bands.get 0).map (fun b => b.state) = some .retiring ∧
      ((after (.defineShift (paramBytes [1, 2000, 2600, 20])) rated).rating.bands.get 1).map (fun b => b.state) =
        some .ramping) := by
  decide +kernel

theorem test_meets_RetireVerticalClosesTheGap :
    let s := quiet.setVerticals section7
    s.resetHeld = false ∧ s.port.ignoring = false ∧ s.port.slot = none ∧ (BitVec.ofInt 32 (-1)).toInt < 0 ∧
    31 < (32 : Word).toInt ∧
    (returning7.resetHeld = false ∧ returning7.port.ignoring = false ∧ returning7.port.slot = none) ∧
    (0 ≤ (31 : Word).toInt ∧ (31 : Word).toInt ≤ 31 ∧ returning7.gauging.run.state = .returning) ∧
    ((s.verticals.length : Int) ≤ (5 : Word).toInt ∧ (4 : Word).toInt < s.verticals.length ∧
      s.gauging.run.state = .none) := by decide +kernel

/-! The cableway and the runs. -/

/-- An Armed run of the section of chapter 7 that waits for 2,400, its answer fetched. -/
def armed : State := after (.fetchFrame 20) (after (.startRun (paramBytes [1, 2400, 3600])) gauging)

/-- The same run with its trigger met. -/
def triggered : State := armed.setRun { armed.run with triggerMet := some true }

/-- The first Measure vertical of the section of chapter 7. -/
def first7 : Vertical := survey 1000 740 .single .measure

theorem firstMeasured_first7 (vs : List Vertical) : FirstMeasured (first7 :: vs) 0 first7 :=
  ⟨rfl, rfl, fun j _ h => absurd h (Nat.not_lt_zero j)⟩

theorem canDepart_armed : CanDepart armed first7 := by
  unfold CanDepart
  decide +kernel

theorem test_meets_RetireVerticalClosesTheGap_armed :
    let edited := { triggered with verticals := triggered.verticals.take 4 ++ triggered.verticals.drop 5 }
    triggered.resetHeld = false ∧ triggered.port.ignoring = false ∧ triggered.port.slot = none ∧ RunReady edited ∧
    FirstMeasured edited.verticals 0 first7 ∧ CanDepart triggered first7 :=
  ⟨rfl, rfl, rfl, by unfold RunReady; decide +kernel, firstMeasured_first7 _, canDepart_armed⟩

/-- A carriage with some contacts. -/
def contacting (state : CarriageState) (contacts : ContactLevels) : State :=
  let s := carriage state .idle 0 0
  s.setCable { s.cable with contacts := contacts }

theorem test_meets_HomeCarriageBeginsHoming :
    (unfitted.resetHeld = false ∧ quiet.resetHeld = false ∧ quiet.port.ignoring = false ∧ quiet.port.slot = none) ∧
    (unfitted.port.ignoring = false ∧ unfitted.port.slot = none ∧ unfitted.port.cablewayFitted = .low) ∧
    ((after (.startRun (paramBytes [1, 2400, 3600])) gauging).gauging.run.state = .armed) ∧
    ((contacting .holding released).cable.state = .holding ∧ quiet.port.cablewayFitted = .high) ∧
    (let s := contacting .unhomed released
     s.cable.state = .unhomed ∧ s.asserted .top = false) ∧
    (let s := contacting .parked { released with top := .low }
     s.cable.state = .parked ∧ s.asserted .top = true ∧ s.asserted .home = false) ∧
    (let s := contacting .parked { released with top := .low, home := .low }
     s.asserted .home = true ∧ s.warning.effects.cableInhibit = []) ∧
    (let s := withRule 2 (nightRule .tripped) (contacting .unhomed { released with top := .low, home := .low })
     s.resetHeld = false ∧ s.port.ignoring = false ∧ s.port.slot = none ∧ s.port.cablewayFitted = .high ∧
     s.gauging.run.state = .none ∧ s.asserted .top = true ∧ s.asserted .home = true ∧
     s.warning.effects.cableInhibit ≠ [] ∧ (after (.homeCarriage []) s).cable.state = .parked) := by decide +kernel

theorem test_meets_ClearFaultLeavesTheCarriageUnhomed :
    quiet.resetHeld = false ∧ quiet.port.ignoring = false ∧ quiet.port.slot = none ∧ quiet.cable.state ≠ .halted ∧
    (contacting .halted released).cable.state = .halted := by
  decide +kernel

/-- A carriage with the traverse waiting to start. -/
def starting (way : TraverseWay) : State :=
  let s := carriage .traversing (.moving .goHome) 0 0
  s.setCable { s.cable with traverse := { s.cable.traverse with start := some way } }

/-- A hoist that waits to start. -/
def hoisting (way : HoistWay) (contacts : ContactLevels) : State :=
  let s := contacting .lowering contacts
  s.setCable { s.cable with hoist := { s.cable.hoist with start := some way } }

theorem test_meets_CablewayLineEvents :
    (quiet.cable.traverse.on = false ∧ quiet.cable.traverse.start = none ∧ quiet.cable.hoist.on = false ∧
      quiet.cable.hoist.start = none) ∧
    (let s := starting .outward
     s.cable.traverse.start = some .outward ∧ s.cable.hoist.on = false ∧ s.cable.hoist.start = none ∧
     s.port.cablewayFitted = .high ∧ s.asserted .top = true ∧ s.asserted .snag = false ∧
     s.warning.effects.cableInhibit = []) ∧
    (let s := withRule 2 (nightRule .tripped) (starting .inward)
     s.cable.traverse.start = some .inward ∧ s.asserted .top = true ∧ s.warning.effects.cableInhibit ≠ []) ∧
    (let s := hoisting .down released
     s.cable.hoist.start = some .down ∧ s.cable.traverse.on = false ∧ s.cable.traverse.start = none ∧
     s.asserted .snag = false ∧ s.warning.effects.cableInhibit = []) ∧
    (quiet.cable.activity = .idle ∧ quiet.cable.traverse.jam = 0 ∧ Contact.snag ≠ .home) ∧
    (homeward.resetHeld = false ∧ quiet.resetHeld = false ∧ homeward.cable.traverse.on = true ∧
      homeward.gauging.run.state ≠ .running ∧ homeward.gauging.run.state ≠ .returning ∧
      homeward.cable.hoist.on = false) ∧
    (Level.low ≠ homeward.cable.contacts.snag ∧ Level.low = levelOfSetting (homeward.settings.read .snagLevel)) ∧
    (let s := returning7.setCable { returning7.cable with traverse := running .inward }
     s.cable.traverse.on = true ∧ s.gauging.run.state = .returning ∧ s.cable.activity = .moving .goHome ∧
     s.gauging.run.endReason = none) := by decide +kernel

/-- A boundary that starts nothing, because of the inhibit, of Top and of the strap; one at which a drive is on; and one
that starts a drive while Snag is asserted, with no run and with the run of a movement. -/
theorem test_meets_CablewayLineEvents_boundary :
    (let s := withRule 2 (nightRule .tripped) (starting .outward)
     s.cable.traverse.on = false ∧ s.asserted .top = true ∧ s.warning.effects.cableInhibit ≠ [] ∧
     after .drivePeriodBoundary s = s) ∧
    (let s := (starting .inward).setCable { (starting .inward).cable with contacts := released }
     s.cable.traverse.on = false ∧ s.asserted .top = false ∧ after .drivePeriodBoundary s = s) ∧
    (let s := withRule 2 (nightRule .tripped) (hoisting .down released)
     s.cable.hoist.on = false ∧ s.warning.effects.cableInhibit ≠ [] ∧ after .drivePeriodBoundary s = s) ∧
    (let s := carriage .traversing (.moving .goHome) 0 0
     let t := s.setCable { s.cable with traverse := running .inward }
     let u := s.setCable { s.cable with hoist := running .down }
     t.cable.traverse.on = true ∧ t.cable.traverse.start = none ∧ t.cable.hoist.start = none ∧
     t.asserted .snag = false ∧ u.cable.hoist.on = true ∧ u.cable.hoist.start = none ∧ u.cable.traverse.on = false ∧
     (after .drivePeriodBoundary t).cable.traverse.duty = 80 ∧ (after .drivePeriodBoundary u).cable.hoist.duty = 60) ∧
    (let s := (starting .outward).setCable { (starting .outward).cable with
       contacts := { released with top := .low, snag := .low } }
     s.asserted .snag = true ∧ s.asserted .top = true ∧ s.gauging.run.state = .none ∧
     (after .drivePeriodBoundary s).cable.state = .halted) ∧
    (let s := hoisting .up { released with snag := .low }
     s.asserted .snag = true ∧ (after .drivePeriodBoundary s).cable.state = .halted) ∧
    (let s := returning7.setCable { returning7.cable with
       contacts := { released with top := .low, snag := .low },
       traverse := { returning7.cable.traverse with on := false, start := some .inward } }
     s.gauging.run.state = .returning ∧ s.cable.activity = .moving .goHome ∧ s.cable.hoist.on = false ∧
     s.cable.hoist.start = none ∧ s.asserted .snag = true ∧
     (after .drivePeriodBoundary s).gauging.run.state = .aborted) := by decide +kernel

/-- Whether a level asserts a contact of a state that is not asserted, or releases one that is. -/
def asserts (s : State) (k : Contact) (v : Level) : Bool :=
  v != levelAt s.cable.contacts k && v == levelOfSetting (s.settings.read (levelSetting k))
def releases (s : State) (k : Contact) (v : Level) : Bool :=
  v != levelAt s.cable.contacts k && v != levelOfSetting (s.settings.read (levelSetting k))

/-- A change of line A that leads, up. -/
def outwards : QuadratureEdge := { changed := .lineA, a := .high, b := .low }

theorem test_meets_MovementsEndAtLineEvents :
    ((carriage .traversing (.moving .goHome) 0 0).resetHeld = false ∧
      asserts (carriage .traversing (.moving .goHome) 0 0) .home .low = true ∧
      (carriage .homing (.homing .find) 0 0).cable.activity = .homing .find) ∧
    (let s := fun target way => carriage .traversing (.moving (.traverseTo target way)) 15589 0
     asserts (s (-295) .outward) .home .low = true ∧ (s (-295) .outward).settings.read .homeOffset = -300 ∧
     ((-295 : Int) - 5 ≤ -300 ∧ ¬ (-294 : Int) - 5 ≤ -300 ∧ (-300 : Int) ≤ -305 + 5 ∧ ¬ (-300 : Int) ≤ -306 + 5)) ∧
    (asserts (carriage .holding .idle 0 0) .home .low = true ∧ outwards.changed ≠ .both ∧
      movedCount outwards 15589 = 15590 ∧
      (let s := carriage .traversing (.moving (.traverseTo 7500 .outward)) 15589 0
       (s.setCable { s.cable with traverseCount := 15590 }).position = 7495)) ∧
    (let s := carriage .lowering (.moving (.lowerTo 100 true 0 true)) 0 49
     s.asserted .bottom = false ∧ movedCount outwards 49 = 50 ∧
     (s.setCable { s.cable with depthCount := 50 }).depth = 100 ∧
     (s.setCable { s.cable with contacts := { s.cable.contacts with bottom := .low } }).asserted .bottom = true) ∧
    (let s := carriage .lowering (.moving (.lowerTo 100 true 0 false)) 0 49
     0 < s.searchCounts ∧ s.searchCounts ≤ (BitVec.ofInt 32 s.searchCounts).toInt ∧
     ¬ s.searchCounts ≤ (BitVec.ofInt 32 (s.searchCounts - 1)).toInt) ∧
    ((carriage .raising (.moving (.raiseTo 100)) 0 51).cable.activity = .moving (.raiseTo 100) ∧ (100 : Int) ≤ 100 ∧
      (100 : Int) < 102) := by decide +kernel

theorem test_meets_MovementsEndAtLineEvents_contacts :
    (let s := carriage .lowering (.moving (.lowerTo 100 true 0 false)) 0 49
     asserts s .surface .low = true ∧ asserts s .bottom .low = true ∧ s.cable.state = .lowering ∧ (0 : Int) < 100) ∧
    (let s := contacting .raising released
     asserts s .top .low = true ∧ s.asserted .home = false) ∧
    (let s := carriage .traversing (.moving (.traverseTo 7500 .outward)) 0 0
     releases s .top .high = true ∧ s.cable.recovering = false) ∧
    (let s := (contacting .traversing released).setCable { (contacting .traversing released).cable with
       activity := .moving .goHome, recovering := true }
     asserts s .top .low = true ∧ s.cable.recovering = true ∧ s.warning.effects.cableInhibit = []) ∧
    (let s := withRule 2 (nightRule .tripped) (contacting .traversing released)
     s.warning.effects.cableInhibit ≠ [] ∧ asserts s .top .low = true) ∧
    (let s := contacting .homing { released with home := .low }
     asserts s .top .low = true ∧ s.asserted .home = true) ∧
    (let s := contacting .homing { released with home := .low, top := .low }
     releases s .home .high = true ∧ s.asserted .top = true) := by decide +kernel

/-- The rows of the table of R133: the run in a dwell, a traverse, a lowering, a stow and a raise between points. -/
def cancelled : List State :=
  ([under .dwell .holding .idle sounded, under .traverse .traversing (.moving (.traverseTo 3000 .outward)) sounded,
    under .sound .lowering (.moving (.lowerTo 1300 true 0 false)) sounded,
    under .stow .raising (.moving .raiseToTop) sounded, under .place .raising (.moving (.raiseTo 58)) sounded]).map
    fun s => s.setCable { s.cable with contacts := released }

theorem test_meets_MeterAbortAndWait :
    (armed.resetHeld = false ∧ armed.gauging.run.state = .armed ∧ armed.port.ignoring = false ∧
    armed.port.slot = none) ∧
    (returning7.resetHeld = false ∧ returning7.port.ignoring = false ∧ returning7.port.slot = none ∧
    returning7.gauging.run.state = .returning) ∧
    (∀ a ∈ cancelled, a.resetHeld = false ∧ a.port.ignoring = false ∧ a.port.slot = none ∧
      a.gauging.run.state = .running ∧ a.asserted .top = false) ∧
    ((cancelled.map fun s => (s.cable.state, s.cable.activity)) =
      [(.holding, .idle), (.traversing, .moving (.traverseTo 3000 .outward)),
       (.lowering, .moving (.lowerTo 1300 true 0 false)), (.raising, .moving .raiseToTop),
       (.raising, .moving (.raiseTo 58))]) ∧
    (let s := fun home => (under .traverse .traversing (.moving (.traverseTo 3000 .outward)) sounded).setCable
       { cancelled[1].cable with contacts := { released with top := .low, home := home } }
     (s .high).asserted .top = true ∧ (s .high).asserted .home = false ∧ (s .low).asserted .top = true ∧
     (s .low).asserted .home = true ∧ (after (.abortRun []) (s .low)).gauging.run.state = .aborted) ∧
    (quiet.gauging.run.state ≠ .armed ∧ quiet.gauging.run.state ≠ .running ∧ quiet.gauging.run.state ≠ .returning) ∧
    ((1 : Int) ≤ 8 ∧ (8 : Int) ≤ 8 ∧ (0 : Int) ≤ 1000 ∧ (1 : Int) ≤ 5000 ∧ (0 : Int) ≤ 255) ∧
    (∀ p ∈ [([0, 0, 1, 0], 0), ([9, 0, 1, 0], 0), ([1, 1001, 1, 0], 1), ([8, 1000, 0, 0], 2), ([8, 1000, 5001, 0], 2),
        ([8, 1000, 5000, 256], 3), ([1, 0, 1, BitVec.ofInt 32 (-1)], 3)],
      answer (.setMeter (paramBytes p.1)) quiet = refused 0x3A 3 p.2) := by decide +kernel

theorem test_meets_StartRunArmsOrRuns :
    let s := gauging
    s.resetHeld = false ∧ s.port.ignoring = false ∧ s.port.slot = none ∧ s.port.cablewayFitted = .high ∧
    s.gauging.run.state = .none ∧
    s.cable.state = .parked ∧ s.cable.activity = .idle ∧ 2 ≤ (s.verticals.filter fun v => v.skip == .measure).length ∧
    (-2000 ≤ (BitVec.ofInt 32 (-2000)).toInt ∧ (30000 : Word).toInt ≤ 30000 ∧ 1 ≤ (1 : Word).toInt ∧
      (172800 : Word).toInt ≤ 172800) ∧
    ((1 : Word) ≠ 0 ∧ 1 < (2 : Word).toNat ∧ ¬ (30001 : Word).toInt ≤ 30000 ∧ ¬ 1 ≤ (0 : Word).toInt ∧
      ¬ (172801 : Word).toInt ≤ 172800) ∧
    (unfitted.resetHeld = false ∧ unfitted.port.ignoring = false ∧ unfitted.port.slot = none ∧
    unfitted.port.cablewayFitted = .low) ∧
    (armed.port.ignoring = false ∧ armed.port.slot = none ∧ armed.gauging.run.state = .armed) ∧
    quiet.cable.state ≠ .parked ∧
    ((s.setVerticals (section7.take 1)).verticals.filter fun v => v.skip == .measure).length < 2 ∧
    FirstMeasured s.verticals 0 first7 ∧ (s.warning.effects.cableInhibit = [] ∧ CanDepart s first7) ∧
    (withRule 2 (nightRule .tripped) s).warning.effects.cableInhibit ≠ [] := by
  refine ⟨rfl, rfl, rfl, rfl, rfl, rfl, rfl, ?_, ?_, ?_, ?_, ?_, ?_, ?_, firstMeasured_first7 _, ⟨rfl, ?_⟩, ?_⟩
  case refine_8 => unfold CanDepart; decide +kernel
  all_goals decide +kernel

/-- The Armed run with a float primary that reads a stage. -/
def armedAt (reading : Int) : State := withRecord 0 { float with mark := none, reading := some reading } armed

/-- A publication that meets the trigger, or falls short of it, and one under the inhibit. -/
theorem test_meets_ArmedRunStartsWhenReady :
    ((armedAt 2400).resetHeld = false ∧ (armedAt 2400).gauging.run.state = .armed ∧
      (armedAt 2400).gauging.run.startCondition = some (.atStage 2400 3600) ∧
      2 ≤ ((armedAt 2400).verticals.filter fun v => v.skip == .measure).length) ∧
    CanDepart (armedAt 2400) first7 ∧ FirstMeasured (armedAt 2400).verticals 0 first7 ∧
    (let t := after .stageIntervalExpiry (armedAt 2400)
     t.stage.record.quality = .good ∧ t.stage.record.stage = some 2400 ∧ t.warning.effects.cableInhibit = []) ∧
    (after .stageIntervalExpiry (armedAt 2399)).stage.record.stage = some 2399 ∧
    (let s := withRule 2 (nightRule .tripped) (armedAt 2400)
     s.warning.effects.cableInhibit ≠ [] ∧
     (after .stageIntervalExpiry s).warning.effects.cableInhibit ≠ []) :=
  ⟨by decide +kernel, canDepart_armed, firstMeasured_first7 _, by decide +kernel, by decide +kernel,
    by decide +kernel⟩

/-- The inhibit leaves at a request, or one of two rules stays; and an edit gives the second Measure vertical. -/
theorem test_meets_ArmedRunStartsWhenReady_requests :
    (let s := withRule 2 (nightRule .tripped) triggered
     s.resetHeld = false ∧ s.port.ignoring = false ∧ s.port.slot = none ∧ s.gauging.run.triggerMet = some true ∧
     s.warning.effects.cableInhibit ≠ [] ∧ s.warning.rules.get 2 = some (nightRule .tripped) ∧
     (after (.disarmRule (beWord (BitVec.ofNat 32 2))) s).warning.effects.cableInhibit = [] ∧
     (after (.retireRule (beWord (BitVec.ofNat 32 2)))
       (withRule 3 (nightRule .tripped) s)).warning.effects.cableInhibit ≠ []) ∧
    (let s := (triggered.setVerticals [first7]).setCursor { table := .verticals, index := 1, fields := [7000, 940, 0] }
     let edited := [first7] ++ [survey 7000 940 .single .measure]
     s.resetHeld = false ∧ s.port.ignoring = false ∧ s.port.slot = none ∧ s.port.cursor.table = .verticals ∧
     s.port.cursor.fields = [7000, 940, BitVec.ofInt 32 MeasurePlan.single.code] ∧
     (s.settings.read .spanStart ≤ (7000 : Word).toInt ∧ (7000 : Word).toInt ≤ s.settings.read .spanEnd ∧
       -2000 ≤ (940 : Word).toInt ∧ (940 : Word).toInt ≤ 30000 ∧ 1 ≤ s.verticals.length ∧
       s.verticals[1 - 1]? = some first7 ∧ (1000 : Int) < (7000 : Word).toInt ∧ s.verticals[1 + 1]? = none) ∧
     RunReady { s with verticals := edited } ∧ FirstMeasured edited 0 first7 ∧ CanDepart s first7) :=
  ⟨by decide +kernel, rfl, rfl, rfl, rfl, by decide +kernel, by decide +kernel, by unfold RunReady; decide +kernel,
    firstMeasured_first7 _, canDepart_armed⟩

/-- The run of chapter 7 one count short of vertical 0, with a stage and its quality. -/
def arriving (quality : Quality) (stage : Option Int) : State :=
  let s := under .traverse .traversing (.moving (.traverseTo 1000 .outward)) sounded
  let s := s.setCable { s.cable with traverseCount := 2589 }
  s.setStage { s.stage with record := { s.stage.record with quality := quality, stage := stage } }

/-- What an arrival asks of a state. -/
def arrives (s : State) : Bool := decide (
  s.resetHeld = false ∧ s.cable.activity = .moving (.traverseTo 1000 .outward) ∧ s.gauging.run.state = .running ∧
  s.gauging.run.step = some .traverse ∧ s.gauging.run.current = some 0 ∧ s.verticals[0]?.isSome = true ∧
  s.warning.effects.cableInhibit = [] ∧ s.asserted .top = true ∧ s.asserted .home = false ∧
  s.asserted .surface = false ∧ s.asserted .bottom = false ∧ 0 < s.searchCounts ∧
  (s.setCable { s.cable with traverseCount := movedCount outwards s.cable.traverseCount }).position = 995)

/-- Rule 4, that gives SurfaceOnly. -/
def surfaceRule : Rule :=
  { nightRule .tripped with
    flags := { floodCadence := false, cableInhibit := false, surfaceOnly := true, remoteLine := false } }

theorem test_meets_ArrivalBeginsAVertical :
    arrives (arriving .none none) ∧ (arriving .none none).stage.record.quality = .none ∧
    arrives (arriving .good (some 1040)) ∧
    (let s := withRule 4 surfaceRule (arriving .held (some 1040))
     arrives s ∧ s.warning.effects.surfaceOnly ≠ []) ∧
    arrives ((arriving .good (some 1040)).setVerticals [survey 1000 740 .surfaceOnly .measure]) ∧
    ((arriving .good none).settings.read .minimumDepth = 150 ∧ (150 : Int) ≤ 890 - 740 ∧ (889 - 740 : Int) < 150) ∧
    ((∀ j ∈ ([0] : List Nat), j ≤ 0) ∧
      (arriving .good none).gauging.visit.find? (fun k => decide (0 < k)) = some 1 ∧
      (arriving .good none).verticals[1]?.map (fun v => v.distance) = some 3000 ∧ (995 : Int) < 3000 - 5) := by
  decide +kernel

/-- The run of chapter 7 with the weight of vertical 1 about to reach Top. -/
def stowed : State :=
  let s := under .stow .raising (.moving .raiseToTop) sounded
  let s := s.setCable { s.cable with contacts := released, traverseCount := 6600 }
  s.setRun { s.run with current := some 1, results := measured7.take 2 }

/-- Top ends the stow: the next Measure vertical beyond the Skip vertical 2, and the last of the visit list. -/
theorem test_meets_ArrivalBeginsAVertical_stowed :
    (stowed.resetHeld = false ∧ stowed.cable.activity = .moving .raiseToTop ∧ stowed.gauging.run.state = .running ∧
      stowed.gauging.run.step = some .stow ∧ stowed.gauging.run.current = some 1 ∧
      stowed.gauging.run.results = measured7.take 1 ++ (measured7.drop 1).take 1 ∧
      stowed.warning.effects.cableInhibit = [] ∧ asserts stowed .top .low = true ∧ stowed.asserted .home = false) ∧
    (stowed.gauging.visit.find? (fun k => decide (1 < k)) = some 3 ∧
      stowed.verticals[3]?.map (fun v => v.distance) = some 5000 ∧ stowed.position < 5000 - 5 ∧
      (after (.contactChange .top .low) stowed).gauging.run.results =
        measured7.take 2 ++ [{ Entry.blank 2 4000 with skipped := true }]) ∧
    (let s := stowed.setGauging { stowed.gauging with visit := [0, 1] }
     (∀ j ∈ s.gauging.visit, j ≤ 1) ∧
     (after (.contactChange .top .low) s).gauging.run.step = some .returnHome) := by decide +kernel

/-- A lowering of the run of chapter 7, with every contact released. -/
def lowering (stop wet : Bool) (target : Int) (depth : Word) (arrivalDepth : Int) : State :=
  let s := under (if stop then .sound else .surfaceLower) .lowering (.moving (.lowerTo target stop 0 wet))
    { Entry.blank 0 1000 with arrivalStage := some 1040 }
  let s := s.setCable { s.cable with contacts := released, depthCount := depth }
  s.setGauging { s.gauging with arrivalDepth := arrivalDepth }

/-- What the end of a lowering asks of a state. -/
def lowers (s : State) (stop wet : Bool) (target : Int) : Bool := decide (
  s.resetHeld = false ∧ s.cable.activity = .moving (.lowerTo target stop 0 wet) ∧ s.gauging.run.state = .running ∧
  s.gauging.run.current = some 0 ∧ s.verticals[0]?.isSome = true ∧
  s.gauging.run.results = [] ++ [{ Entry.blank 0 1000 with arrivalStage := some 1040 }] ∧ s.asserted .top = false ∧
  asserts s .bottom .low = true ∧ s.asserted .bottom = false)

theorem test_meets_SoundingsAndSurfaceLoweringsEnd :
    (let s := lowering true true 1300 145 300
     lowers s true true 1300 ∧ s.depth = 290 ∧ s.settings.read .minimumDepth ≤ 290 ∧
     s.stage.record.quality = .good ∧ s.stage.record.stage = some 1040 ∧ s.settings.read .bedTolerance = 50 ∧
     ((((1040 - 350) - 740 : Int).natAbs : Int) ≤ 50 ∧ (50 : Int) < (((1040 - 351) - 740 : Int).natAbs : Int))) ∧
    (lowering true true 1300 59 300).depth = 118 ∧
    (let s := lowering true true 1300 145 300
     (s.setStage { s.stage with record := { s.stage.record with quality := .held } }).stage.record.quality ≠ .good) ∧
    lowers (lowering true false 1300 145 300) true false 1300 ∧
    lowers (lowering false true 100 49 90) false true 100 ∧ lowers (lowering false false 100 49 90) false false 100 ∧
    (roundHalfUp (290 * 6) 10 < 290 ∧ ¬ roundHalfUp (1000 * 6) 10 < 290) ∧
    (movedCount outwards 49 = 50 ∧ ((lowering true true 100 50 1000).depth = 100) ∧
      lowers (lowering true true 100 49 1000) true true 100) ∧
    (let s := lowering true false 1300 49 300
     s.searchCounts ≤ (BitVec.ofInt 32 s.searchCounts).toInt) := by
  decide +kernel

theorem test_meets_DwellMeasuresAVelocity :
    quiet.resetHeld = false ∧ quiet.gauging.dwell = none ∧
    (let s := under .dwell .holding .idle sounded
     let s := (s.setGauging { s.gauging with
       dwell := some { length := 40, elapsed := 40, pulses := 3, surface := false } }).setCable
         { s.cable with contacts := released }
     s.resetHeld = false ∧ s.gauging.dwell = some { length := 40, elapsed := 40, pulses := 3, surface := false } ∧
     s.gauging.run.results = [] ++ [sounded] ∧ sounded.points = [] ∧ s.gauging.run.current = some 0 ∧
     s.verticals[0]?.map (fun v => v.plan) = some .single ∧ s.cable.state = .holding ∧ s.cable.activity = .idle ∧
     s.asserted .top = false ∧ sounded.depthUsed = some 290 ∧
     (let deep := s.setCable { s.cable with depthCount := 145 }
      deep.depth = 290 ∧ roundHalfUp (290 * 2) 10 < 290 ∧ roundHalfUp (290 * 6) 10 < 290)) ∧
    (MeasurePlan.twoPoint.fractions = [8, 2] ∧ MeasurePlan.threePoint.fractions = [8, 6, 2]) := by decide +kernel

/-- The entries of the completed run beside one another: the skipped one is passed over, the ends take their own
distance. -/
theorem test_meets_CompletionWorksOutTheDischarge_raise :
    let back := fun (m : Movement) =>
      let s := under .returnRaise .raising (.moving m) sounded
      (s.setCable { s.cable with contacts := released, depthCount := 29 }).setRun { s.run with state := .returning }
    ((back .raiseToTop).resetHeld = false ∧ (back .raiseToTop).gauging.run.state = .returning ∧
      (back .raiseToTop).gauging.run.step = some .returnRaise ∧ asserts (back .raiseToTop) .top .low = true ∧
      (back .raiseToTop).asserted .home = false) ∧
    ((back (.raiseTo 58)).cable.activity = .moving (.raiseTo 58) ∧ outwards.changed ≠ .both ∧
      (back (.raiseTo 60)).asserted .top = false ∧
      (let s := back (.raiseTo 60)
       (s.setCable { s.cable with depthCount := movedCount outwards s.cable.depthCount }).depth = 60)) := by
  decide +kernel

theorem test_meets_CompletionWorksOutTheDischarge :
    (returning7.resetHeld = false ∧ returning7.cable.activity = .moving .goHome ∧
      returning7.gauging.run.state = .returning ∧ returning7.gauging.run.step = some .returnHome ∧
      asserts returning7 .home .low = true ∧ returning7.gauging.run.endReason = none ∧
      returning7.gauging.run.startStage = some 1040 ∧ returning7.gauging.run.endStage = some 1052) ∧
    (returning7.setRun { returning7.run with endReason := some .cancelled }).gauging.run.endReason = some .cancelled ∧
    (returning7.gauging.run.results.map fun e => (e.skipped, e.distance, e.mean.isSome, e.depthUsed.isSome)) =
      [(false, 1000, true, true), (false, 3000, true, true), (true, 4000, false, false), (false, 5000, true, true),
       (false, 7000, true, true)] ∧
    sounded.mean = none := by decide +kernel

/-- Rule 2 about to trip at the next publication, which brings CableInhibit. -/
def rising (s : State) : State :=
  withRule 2 (nightRule .armed)
    ((withRecord 0 { float with mark := none, reading := some 2331 } s).setRating
      { s.rating with active := rated.rating.active })

/-- What the entry of CableInhibit asks of a state. -/
def inhibits (s : State) : Bool := decide (
  s.resetHeld = false ∧ s.warning.effects.cableInhibit = [] ∧
  (after .stageIntervalExpiry s).warning.effects.cableInhibit ≠ [])

theorem test_meets_InhibitEndsMovementAndRun :
    (let s := rising (lowering true false 1300 49 300)
     inhibits s ∧ s.gauging.run.state = .running ∧ s.asserted .top = false) ∧
    (let s := (under .dwell .holding .idle sounded)
     let s := rising (s.setCable { s.cable with contacts := released })
     inhibits s ∧ s.cable.activity = .idle ∧ s.cable.state = .holding ∧ s.asserted .top = false) ∧
    (let s := rising (arriving .good (some 1040))
     inhibits s ∧ s.gauging.run.state = .running ∧ s.asserted .top = true ∧ s.asserted .home = false ∧
     s.cable.recovering = false ∧ s.cable.activity = .moving (.traverseTo 1000 .outward)) ∧
    (let s := rising (under .stow .raising (.moving .raiseToTop) sounded)
     inhibits s ∧ s.gauging.run.state = .running ∧ s.cable.activity = .moving .raiseToTop) ∧
    (let s := rising (carriage .homing (.homing .release) 0 0)
     inhibits s ∧ s.asserted .top = true) := by
  decide +kernel

/-- The run of chapter 7 completed and unsteady. -/
def unsteady7 : State := complete7.setRun { complete7.run with flags := { complete7.run.flags with unsteady := true } }

/-- Run 7 completed beside rating 12 with its band stretched over the mean stage of 1,046. -/
def banded7 : State := complete7.setRating rated.rating

theorem test_meets_AcceptGaugingPlacesTheShift :
    (quiet.resetHeld = false ∧ quiet.port.ignoring = false ∧ quiet.port.slot = none ∧
    quiet.gauging.run.state ≠ .complete ∧ 1 < (2 : Word).toNat) ∧
    (complete7.resetHeld = false ∧ complete7.port.ignoring = false ∧ complete7.port.slot = none ∧
      inverseLookup complete7.rating.active.points 390001 = none) ∧
    (complete7.gauging.run.state = .complete ∧ complete7.gauging.run.id = some 14 ∧
      complete7.gauging.run.totals.isSome = true ∧ complete7.gauging.run.startStage = some 1040 ∧
      complete7.gauging.run.endStage = some 1052) ∧
    (unsteady7.gauging.run.flags.unsteady = true ∧ complete7.gauging.run.flags.unsteady = false) ∧
    (complete7.rating.adoption.request = none ∧ (adopting []).rating.adoption.request ≠ none ∧
      inverseLookup complete7.rating.active.points 27000 = some 1005 ∧
      ((1005 - 1046 : Int).natAbs : Int) ≤ complete7.settings.read .shiftLimit ∧
      (complete7.settings.write .shiftLimit 40).read .shiftLimit < ((1005 - 1046 : Int).natAbs : Int)) ∧
    ((∀ k, complete7.rating.bands.get k = none) ∧ 20 ≤ (1296 - 796 : Int) ∧
      (min 30000 ((30000 : Int) + 19) - max (-2000) ((30000 : Int) - 19) < 20)) ∧
    (banded7.rating.bands.get 0).map (fun b => decide (b.lower ≤ 1046 ∧ 1046 < b.upper)) = some true := by
  decide +kernel

theorem test_meets_AcceptGaugingPlacesTheShift_bands : BandsLaw 300 banded7.rating.bands := bandsLaw_rated

/-- A band that stands still. -/
def standing (lower upper : Int) : Band :=
  { state := .applied, lower := lower, upper := upper, target := 0, applied := 0, origin := .manual, changed := 0 }

/-- Bands on both sides of the mean stage, the first slot in use, and a table that is full of bands elsewhere. -/
theorem test_meets_AcceptGaugingPlacesTheShift_neighbours :
    (let t := ((complete7.rating.bands.set 0 (some (standing 0 1000))).set 2 (some (standing 1100 1200)) : ShiftTable)
     t.get 1 = none ∧ (∀ j, j < 1 → t.get j ≠ none) ∧
     (∀ k, ∀ old ∈ t.get k, (1046 : Int) < old.lower ∨ old.upper ≤ 1046) ∧
     (∀ k, ∀ old ∈ t.get k, old.upper ≤ 1046 → old.upper ≤ 1000) ∧
     (∀ k, ∀ old ∈ t.get k, 1046 < old.lower → 1100 ≤ old.lower) ∧ max (-2000) (1046 - 250 : Int) ≤ 1000 ∧
     1100 ≤ min 30000 (1046 + 250 : Int) ∧ (20 : Int) ≤ 1100 - 1000) ∧
    (let t := ((complete7.rating.bands.set 0 (some (standing 0 1040))).set 1 (some (standing 1059 1200)) : ShiftTable)
     t.get 2 = none ∧ (1059 - 1040 : Int) < 20) ∧
    (let t : ShiftTable := Vector.ofFn fun k => some (standing (2000 + k.val) (2001 + k.val))
     (∀ k, t.get k ≠ none) ∧ ∀ k, ∀ old ∈ t.get k, (1046 : Int) < old.lower ∨ old.upper ≤ 1046) := by decide +kernel

/-! Warnings. -/

theorem test_meets_RulesAreDefinedArmedAndTakenOut :
    quiet.resetHeld = false ∧ quiet.port.ignoring = false ∧ quiet.port.slot = none ∧ quiet.warning.rules.get 15 = none ∧
    ((withRule 15 (nightRule .armed) quiet).warning.rules.get 15 = some (nightRule .armed) ∧
      (nightRule .armed).state ≠ .disarmed) ∧
    ((nightRule .disarmed).state = .disarmed ∧ (nightRule .latched).state ≠ .armed) ∧
    (Quantity.discharge.admits 16000000 = true ∧ Quantity.discharge.admits 0 = true ∧
      Quantity.rate.admits (-100000) = true ∧ Quantity.stage.admits 30000 = true ∧ (1 : Nat) ≤ 15 ∧ (1 : Nat) ≤ 63 ∧
      (1 : Nat) ≤ 4) ∧
    ((BitVec.ofInt 32 (-1)).toInt < 0 ∧ 15 < (16 : Word).toInt ∧ (List.replicate 9 (0 : Word)).length = 9 ∧
      2 < (3 : Word).toNat ∧ (2 : Word) = BitVec.ofInt 32 Quantity.discharge.code ∧
      ¬ (16000001 : Word).toInt ≤ 16000000 ∧ (0 : Word).toInt < (1 : Word).toInt ∧ ¬ 1 ≤ (0 : Word).toInt ∧
      ¬ (16 : Word).toInt ≤ 15 ∧ ¬ (64 : Word).toInt ≤ 63 ∧ ¬ (5 : Word).toInt ≤ 4 ∧ 1 < (2 : Word).toNat ∧
      3 < (4 : Word).toNat ∧ 15 < (16 : Word).toNat) := by decide +kernel

theorem test_meets_AcknowledgeActsOnTheState :
    quiet.resetHeld = false ∧ quiet.port.ignoring = false ∧ quiet.port.slot = none ∧
    (BitVec.ofInt 32 (-1)).toInt < 0 ∧ 15 < (16 : Word).toInt ∧
    (15 : Word).toInt = ((15 : Fin 16).val : Int) ∧
    (∀ state ∈ [RuleState.disarmed, .armed, .acknowledged],
      (withRule 15 (nightRule state) quiet).warning.rules.get 15 = some (nightRule state)) ∧
    (withRule 15 (nightRule .tripped) quiet).warning.rules.get 15 = some (nightRule .tripped) ∧
    (withRule 15 (nightRule .latched) quiet).warning.rules.get 15 = some (nightRule .latched) ∧
    EffectsLaw (withRule 15 (nightRule .latched) quiet) ∧ EffectsLaw (withRule 15 (nightRule .tripped) quiet) := by
  unfold EffectsLaw
  decide +kernel

theorem test_meets_PhaseEndTurnsThePattern :
    quiet.resetHeld = false ∧ (withRule 2 (nightRule .tripped) quiet).warning.winning = .p3 ∧
    quiet.warning.winning = .none ∧
    (let s := withRule 2 (nightRule .tripped) quiet
     let t := after (.disarmRule (paramBytes [2])) s
     t.warning.winning = .none ∧ t.warning.winning ≠ s.warning.winning) ∧
    (let s := night 2331 (nightRule .armed)
     let t := after .stageIntervalExpiry s
     t.warning.winning = .p3 ∧ s.warning.winning = .none ∧
     (after .stageIntervalExpiry t).warning.winning = t.warning.winning) := by decide +kernel

theorem test_meets_OutputLinesFollowTheRecords :
    (held.resetHeld = true ∧ quiet.resetHeld = false) ∧
    (unfitted.port.cablewayFitted = .low ∧ unfitted.resetHeld = false ∧ StrapLaw unfitted) ∧
    EffectsLaw (withRule 2 (nightRule .tripped) quiet) ∧
    ((withRule 2 (nightRule .tripped) quiet).lines.siren = .high ∧
      (withRule 2 (nightRule .tripped) quiet).lines.beacon = .high ∧
      (withRule 2 (nightRule .tripped) quiet).lines.remote = .high ∧ State.reset.lines.attn = .low ∧
      quiet.lines.attn = .high) := by
  unfold StrapLaw EffectsLaw
  decide +kernel

end Sys2Proof.Tests
end

section
/-! The stage record that the end of an interval publishes: which channel may serve, what is chosen from the standings
(R36, R37), the rate and the trend (R38, R39), and what the end of the interval leaves. -/

namespace Sys2Proof.Machine

/-! ### The channel that serves -/

/-- In a strictly ascending list, a member that satisfies `p` while no smaller member does is the one found. -/
theorem find?_eq_some_of_lowest {n : Nat} {l : List (Fin n)} {p : Fin n → Bool} {i : Fin n}
    (ascending : l.Pairwise (· < ·)) (hi : i ∈ l) (hp : p i = true) (lowest : ∀ j < i, j ∈ l → p j = false) :
    l.find? p = some i := by
  obtain ⟨before, after, rfl⟩ := List.append_of_mem hi
  have hbefore : ∀ j ∈ before, j < i := fun j hj =>
    (List.pairwise_append.mp ascending).2.2 j hj i List.mem_cons_self
  refine List.find?_eq_some_iff_append.mpr ⟨hp, before, after, rfl, fun j hj => ?_⟩
  rw [lowest j (hbefore j hj) (List.mem_append_left _ hj)]
  rfl

/-- R28: Valid and a Candidate. -/
theorem mayServe_iff (s : State) (i : ChannelNumber) :
    s.mayServe i = true ↔
      (s.channels.get i).condition = .valid ∧ (s.stage.votes.get i).standing = .candidate := by
  unfold State.mayServe State.validChannel State.channel State.vote
  rw [Bool.and_eq_true, beq_iff_eq, beq_iff_eq]

/-- R23: the checks are the channels of the mask, without the primary. -/
theorem mem_checkList_iff (s : State) (i : ChannelNumber) :
    i ∈ s.checkList ↔ i ≠ s.stage.setup.primary ∧ s.stage.setup.checks.getLsbD i.val = true := by
  unfold State.checkList VoteSetup.role
  rw [List.mem_filter, beq_iff_eq]
  split <;> simp_all [List.mem_finRange]

theorem checkList_ascending (s : State) : s.checkList.Pairwise (· < ·) :=
  (List.pairwise_lt_finRange _).filter _

theorem server_of_primary {s : State} (h : s.mayServe s.stage.setup.primary = true) :
    s.server = some s.stage.setup.primary := if_pos h

theorem server_of_lowest_check {s : State} {i : ChannelNumber} (hp : s.mayServe s.stage.setup.primary = false)
    (hi : i ∈ s.checkList) (hs : s.mayServe i = true) (lowest : ∀ j < i, j ∈ s.checkList → s.mayServe j = false) :
    s.server = some i :=
  (if_neg (by rw [hp]; decide)).trans (find?_eq_some_of_lowest (checkList_ascending s) hi hs lowest)

theorem server_of_none {s : State} (hp : s.mayServe s.stage.setup.primary = false)
    (hc : ∀ i ∈ s.checkList, s.mayServe i = false) : s.server = none :=
  (if_neg (by rw [hp]; decide)).trans (List.find?_eq_none.mpr fun i hi => by rw [hc i hi]; decide)

/-! ### The choice of stage (R36, R37) -/

theorem chooseStage_good {s : State} (h : s.server = some s.stage.setup.primary) :
    chooseStage s = { stage := some (s.readingOf s.stage.setup.primary), source := some s.stage.setup.primary,
                      quality := .good, held := 0 } := by
  unfold chooseStage
  rw [h]
  simp

theorem chooseStage_failover {s : State} {i : ChannelNumber} (h : s.server = some i) (hi : i ≠ s.stage.setup.primary) :
    chooseStage s = { stage := some (s.readingOf i), source := some i, quality := .failover, held := 0 } := by
  unfold chooseStage
  rw [h]
  simp [hi]

theorem chooseStage_held {s : State} {x : Int} (h : s.server = none) (hx : s.stage.record.stage = some x)
    (hl : (s.stage.heldCount : Int) < s.setting .holdLimit) :
    chooseStage s = { stage := some x, source := none, quality := .held, held := s.stage.heldCount + 1 } := by
  unfold chooseStage
  rw [h, hx]
  exact if_pos ⟨rfl, hl⟩

theorem chooseStage_lost {s : State} (h : s.server = none)
    (hl : s.stage.record.stage = none ∨ s.setting .holdLimit ≤ (s.stage.heldCount : Int)) :
    chooseStage s = { stage := none, source := none, quality := .none, held := s.stage.heldCount } := by
  unfold chooseStage
  rw [h]
  refine if_neg fun ⟨hsome, hlt⟩ => ?_
  rcases hl with hnone | hle
  · rw [hnone] at hsome
    cases hsome
  · omega

/-! ### The rate (R38) -/

/-- R38: the raw rate with the limits it is held to written out. -/
theorem rawRate_eq (new last : Int) (seconds : Nat) :
    rawRate new last seconds = max (-100000) (min 100000 (Int.tdiv ((new - last) * 3600) seconds)) := by
  unfold rawRate clampTo Config.rateMax
  rw [min_comm]

/-- R38: with both stages present and neither record Held the rate is smoothed toward the raw rate. -/
theorem nextRate_smoothed {last : StageRecord} {c : Choice} {old new : Int} (seconds : Nat)
    (hold : last.stage = some old) (hnew : c.stage = some new) (hlast : last.quality ≠ .held)
    (hc : c.quality ≠ .held) :
    nextRate last c seconds = smoothRate last.rate (rawRate new old seconds) := by
  unfold nextRate
  rw [hold, hnew]
  exact if_neg (not_or.mpr ⟨hc, hlast⟩)

/-- R38: with a stage absent or a record Held the rate is carried over. -/
theorem nextRate_carried {last : StageRecord} {c : Choice} (seconds : Nat)
    (h : last.stage = none ∨ c.stage = none ∨ last.quality = .held ∨ c.quality = .held) :
    nextRate last c seconds = last.rate := by
  unfold nextRate
  split
  next new old hnew hold =>
    refine if_pos ?_
    rcases h with h | h | h | h
    · rw [hold] at h
      cases h
    · rw [hnew] at h
      cases h
    · exact Or.inr h
    · exact Or.inl h
  next => rfl

/-! ### The interval that begins (R20, R21) -/

theorem cadenceInForce_eq_flood_iff (s : State) :
    s.cadenceInForce = .flood ↔ s.warning.effects.floodCadence ≠ [] ∨ s.gauging.run.state = .running ∨
      s.gauging.run.state = .returning := by
  unfold State.cadenceInForce State.run
  split <;> simp_all [or_assoc]

theorem nextInterval_flood {s : State} (h : s.cadenceInForce = .flood) :
    nextInterval s = { length := (s.settings.read .floodCadence).toNat, cadence := .flood, elapsed := 0 } := by
  unfold nextInterval
  rw [h]
  rfl

theorem nextInterval_quiet {s : State} (h : s.cadenceInForce ≠ .flood) :
    nextInterval s = { length := (s.settings.read .quietCadence).toNat, cadence := .quiet, elapsed := 0 } := by
  have hquiet : s.cadenceInForce = .quiet := by
    cases hc : s.cadenceInForce
    · rfl
    · exact absurd hc h
  unfold nextInterval
  rw [hquiet]
  rfl

/-! ### The state that the stage is chosen in -/

/-- R20, R25 to R34: at the end of an interval, the next interval has begun and the vote is taken; the stage is chosen
in this state. -/
def afterVote (s : State) : State := takeVote (s.setStage { s.stage with interval := nextInterval s })

theorem afterVote_frame (s : State) : CableFrame (s.setStage (afterVote s).stage) (afterVote s) := by
  have frame := takeVote_frame (s.setStage { s.stage with interval := nextInterval s })
  rwa [setStage_setStage] at frame

theorem afterVote_readingOf (s : State) (i : ChannelNumber) :
    (afterVote s).readingOf i = (s.channels.get i).reading.getD 0 := by
  unfold State.readingOf State.channel
  rw [(afterVote_frame s).channels]
  rfl

theorem afterVote_setting (s : State) (x : Setting) : (afterVote s).setting x = s.settings.read x := by
  unfold State.setting
  rw [(afterVote_frame s).settings]
  rfl

@[simp] theorem afterVote_stage_record (s : State) : (afterVote s).stage.record = s.stage.record := by
  unfold afterVote
  rw [takeVote_stage]
  rfl

@[simp] theorem afterVote_stage_heldCount (s : State) : (afterVote s).stage.heldCount = s.stage.heldCount := by
  unfold afterVote
  rw [takeVote_stage]
  rfl

@[simp] theorem afterVote_stage_interval (s : State) : (afterVote s).stage.interval = nextInterval s := by
  unfold afterVote
  rw [takeVote_stage]
  rfl

/-! ### The stage block at the end of an interval -/

/-- The publication sets the record and the count of Held settlements, and leaves the block as the vote left it. -/
theorem stageIntervalExpiry_stage_eq (s : State) :
    (stageIntervalExpiry s).stage =
      { (afterVote s).stage with
        record := newRecord (afterVote s) (chooseStage (afterVote s)) s.stage.interval,
        heldCount := (chooseStage (afterVote s)).held } := by
  rw [stageIntervalExpiry_stage]
  exact publish_stage _ _

@[simp] theorem stageIntervalExpiry_setup (s : State) :
    (stageIntervalExpiry s).stage.setup = (afterVote s).stage.setup := by
  rw [stageIntervalExpiry_stage_eq]

@[simp] theorem stageIntervalExpiry_votes (s : State) :
    (stageIntervalExpiry s).stage.votes = (afterVote s).stage.votes := by
  rw [stageIntervalExpiry_stage_eq]

@[simp] theorem stageIntervalExpiry_interval (s : State) :
    (stageIntervalExpiry s).stage.interval = nextInterval s := by
  rw [stageIntervalExpiry_stage_eq]
  exact afterVote_stage_interval s

@[simp] theorem stageIntervalExpiry_heldCount (s : State) :
    (stageIntervalExpiry s).stage.heldCount = (chooseStage (afterVote s)).held := by
  rw [stageIntervalExpiry_stage_eq]

/-- R36, R38 to R40: the fields of the record that the end of an interval publishes. -/
theorem stageIntervalExpiry_record (s : State) :
    let r := (stageIntervalExpiry s).stage.record
    let c := chooseStage (afterVote s)
    r.sequence = s.stage.record.sequence + 1 ∧ r.time = s.clock ∧ r.cadence = s.stage.interval.cadence ∧
    r.stage = c.stage ∧ r.source = c.source ∧ r.quality = c.quality ∧
    r.rate = nextRate s.stage.record c s.stage.interval.length ∧
    r.trend = trendOf (s.settings.read .steadyLimit) r.rate := by
  rw [stageIntervalExpiry_stage_eq]
  unfold newRecord
  rw [afterVote_setting, afterVote_stage_record, (afterVote_frame s).clock]
  generalize chooseStage (afterVote s) = c
  exact ⟨rfl, rfl, rfl, rfl, rfl, rfl, rfl, rfl⟩

/-- R36, R37: what is chosen is what the end of an interval publishes. -/
theorem stageIntervalExpiry_publishes {s : State} {c : Choice} (chosen : chooseStage (afterVote s) = c) :
    let b := (stageIntervalExpiry s).stage
    b.record.stage = c.stage ∧ b.record.source = c.source ∧ b.record.quality = c.quality ∧ b.heldCount = c.held := by
  obtain ⟨-, -, -, hstage, hsource, hquality, -, -⟩ := stageIntervalExpiry_record s
  have hheld := stageIntervalExpiry_heldCount s
  rw [chosen] at hstage hsource hquality hheld
  exact ⟨hstage, hsource, hquality, hheld⟩

/-- R28: a channel may serve in the choice when it is Valid and a Candidate once the interval has ended. -/
theorem afterVote_mayServe_iff (s : State) (i : ChannelNumber) :
    (afterVote s).mayServe i = true ↔
      (s.channels.get i).condition = .valid ∧
      ((stageIntervalExpiry s).stage.votes.get i).standing = .candidate := by
  rw [mayServe_iff, stageIntervalExpiry_votes, (afterVote_frame s).channels]
  rfl

/-! ### What the end of an interval leaves and raises -/

/-- A reason that stands before the Warning Unit and the cableway act stands after. -/
theorem SpreadFrame.raised {s t : State} (h : SpreadFrame s t) {r : Reason} (hr : s.attends r = true) :
    t.attends r = true := by
  obtain ⟨_, _, frame⟩ := h
  exact frame.raised r hr

theorem raise_attends (s : State) (r : Reason) : (s.raise r).attends r = true := by
  have hbit : r.bit < 12 := by cases r <;> decide
  have hmember : (addReason s.port.attention r).getLsbD r.bit = true := by
    rw [addReason, BitVec.getLsbD_or, BitVec.getLsbD_twoPow]
    simp [hbit]
  exact hmember

/-- R37: a publication of no stage after a record of another quality raises StageLost. -/
theorem publish_stageLost (ended : StageInterval) {s : State} (hnow : (chooseStage s).quality = .none)
    (hbefore : s.stage.record.quality ≠ .none) : (publish ended s).attends .stageLost = true := by
  have hlost : ((chooseStage s).quality == .none && s.stage.record.quality != .none) = true := by
    rw [Bool.and_eq_true, beq_iff_eq, bne_iff_ne]
    exact ⟨hnow, hbefore⟩
  unfold publish State.raiseIf
  dsimp only
  rw [if_pos hlost]
  exact raise_attends _ _

theorem stageIntervalExpiry_stageLost {s : State} (hnow : (chooseStage (afterVote s)).quality = .none)
    (hbefore : s.stage.record.quality ≠ .none) : (stageIntervalExpiry s).attends .stageLost = true := by
  have hpublished := publish_stageLost s.stage.interval hnow (by rwa [afterVote_stage_record])
  exact (consumePublication_spread _).raised hpublished

/-- Of the port, only the attention set moves. -/
theorem CableFrame.port {s t : State} (h : CableFrame s t) :
    t.port = { s.port with attention := t.port.attention } := by
  dsimp only
  rw [← h.unitAddress, ← h.cablewayFitted, ← h.slot, ← h.mask, ← h.cursor, ← h.sdo, ← h.ignoring]

/-- R40, R121, R148: what neither a change of the stage block nor the consumers of a publication touch. -/
theorem SpreadFrame.leaves {s t : State} {b : StageBlock} (h : SpreadFrame (s.setStage b) t) :
    t.clock = s.clock ∧ t.settings = s.settings ∧ t.channels = s.channels ∧ t.rating = s.rating ∧
    t.pending = s.pending ∧ t.port = { s.port with attention := t.port.attention } ∧
    t.cable.contacts = s.cable.contacts ∧ t.gauging.meter = s.gauging.meter := by
  obtain ⟨_, _, frame⟩ := h
  exact ⟨frame.clock, frame.settings, frame.channels, frame.rating, frame.pending, frame.port, frame.contacts,
    frame.meter⟩

/-- R20: outside Reset the row is the end of the interval. -/
theorem exec_stageIntervalExpiry {s : State} (running : s.resetHeld = false) :
    exec .stageIntervalExpiry s = .next (stageIntervalExpiry s) :=
  unlessHeld_running stageIntervalExpiry running

end Sys2Proof.Machine

/-! ### The statements -/

open Sys2Proof.Machine

/-- Settles O33: the record's rate is `nextRate` of the record before it and its trend is `trendOf` that rate. -/
theorem rateAndTrendOfTheNewRecord : Obligations.RateAndTrendOfTheNewRecord := by
  intro s running
  refine ⟨stageIntervalExpiry s, exec_stageIntervalExpiry running, ?_⟩
  obtain ⟨-, -, -, hstage, -, hquality, hrate, htrend⟩ := stageIntervalExpiry_record s
  generalize stageIntervalExpiry s = t at *
  generalize chooseStage (afterVote s) = c at *
  rw [hstage, hquality]
  refine ⟨fun old new hold hnew hlast hc => ?_, fun h => ?_, htrend⟩
  · rw [hrate, nextRate_smoothed _ hold hnew hlast hc, rawRate_eq]
    rfl
  · exact hrate.trans (nextRate_carried _ h)

/-- Settles O32: the stage is the choice made in `afterVote s`, whose standings and setup the published block keeps. -/
theorem stageIsChosenFromTheVote : Obligations.StageIsChosenFromTheVote := by
  intro s running
  refine ⟨stageIntervalExpiry s, exec_stageIntervalExpiry running, ?_, (stageIntervalExpiry_spread s).leaves⟩
  intro u r usable reading flood
  have serves : ∀ i, usable i → (afterVote s).mayServe i = true := fun i => (afterVote_mayServe_iff s i).mpr
  have serves_not : ∀ i, ¬ usable i → (afterVote s).mayServe i = false := fun i h =>
    Bool.eq_false_iff.mpr (mt (afterVote_mayServe_iff s i).mp h)
  have setup : (afterVote s).stage.setup = u := (stageIntervalExpiry_setup s).symm
  have check : ∀ i, i ∈ (afterVote s).checkList ↔ i ≠ u.primary ∧ u.checks.getLsbD i.val = true := fun i => by
    rw [mem_checkList_iff, setup]
  obtain ⟨hsequence, htime, hcadence, -⟩ := stageIntervalExpiry_record s
  refine ⟨hsequence, htime, hcadence, fun hflood => ?flood, fun hquiet => ?quiet, fun hprimary => ?good,
    fun i hprimary hi hmask hs lowest => ?failover, fun unusable => ?noServer⟩
  case flood =>
    rw [stageIntervalExpiry_interval, nextInterval_flood ((cadenceInForce_eq_flood_iff s).mpr hflood)]
  case quiet =>
    rw [stageIntervalExpiry_interval, nextInterval_quiet (mt (cadenceInForce_eq_flood_iff s).mp hquiet)]
  case good =>
    have chosen := chooseStage_good (server_of_primary (serves _ (setup ▸ hprimary)))
    rw [setup, afterVote_readingOf] at chosen
    exact stageIntervalExpiry_publishes chosen
  case failover =>
    have server : (afterVote s).server = some i :=
      server_of_lowest_check (serves_not _ (setup ▸ hprimary)) ((check i).mpr ⟨hi, hmask⟩) (serves i hs)
        fun j hj hcheck =>
          have ⟨hother, hbit⟩ := (check j).mp hcheck
          serves_not j (lowest j hj hother hbit)
    have chosen := chooseStage_failover server (setup ▸ hi)
    rw [afterVote_readingOf] at chosen
    exact stageIntervalExpiry_publishes chosen
  case noServer =>
    have server : (afterVote s).server = none := by
      refine server_of_none (serves_not _ fun h => ?_) fun i hcheck => serves_not i fun h => ?_
      · exact (unusable _ h).1 (by rw [setup])
      · exact Bool.false_ne_true ((unusable i h).2.symm.trans ((check i).mp hcheck).2)
    refine ⟨fun x hx hbelow => ?held, fun hlost => ?lost⟩
    case held =>
      have chosen := chooseStage_held (x := x) server (by rwa [afterVote_stage_record])
        (by rwa [afterVote_stage_heldCount, afterVote_setting])
      rw [afterVote_stage_heldCount] at chosen
      exact stageIntervalExpiry_publishes chosen
    case lost =>
      have chosen := chooseStage_lost server
        (by rwa [afterVote_stage_record, afterVote_stage_heldCount, afterVote_setting])
      rw [afterVote_stage_heldCount] at chosen
      obtain ⟨hstage, hsource, hquality, hheld⟩ := stageIntervalExpiry_publishes chosen
      exact ⟨hstage, hsource, hquality, hheld, stageIntervalExpiry_stageLost (by rw [chosen])⟩

end

section
/-! CLEAR FAULT (R110): what its owner answers when the carriage is Halted and when it is not, and what is known of the
position of an Unhomed carriage (R95). -/

namespace Sys2Proof.Machine

/-! ### What CLEAR FAULT answers (R110) -/

theorem clearFault_of_not_halted {s : State} (h : s.cable.state ≠ .halted) :
    clearFault [] s = refused s .wrongState 0 :=
  if_neg h

theorem clearFault_of_halted {s : State} (h : s.cable.state = .halted) :
    clearFault [] s = done (s.setCable { s.cable with state := .unhomed, haltedKnown := false }) [] :=
  if_pos h

/-- R110, R173: into an empty slot, CLEAR FAULT leaves what its owner leaves and answers what its owner replies. -/
theorem exec_clearFault_empty {s : State} {taken : Taken} (running : s.resetHeld = false)
    (heard : s.port.ignoring = false) (empty : s.port.slot = none) (owned : clearFault [] s = taken) :
    exec (.clearFault []) s = .next (taken.state.fillSlot (taken.reply.answer RequestName.clearFault.code)) :=
  owned ▸ exec_request_empty (.clearFault []) .clearFault [] s rfl running heard empty (Nat.zero_le _)

/-! ### The position of an Unhomed carriage (R95) -/

theorem positionKnown_unhomed {c : Cableway} (h : c.state = .unhomed) : c.positionKnown = false := by
  rw [Cableway.positionKnown, h]

theorem knownPosition_unhomed {s : State} (h : s.cable.state = .unhomed) : s.knownPosition = none :=
  if_neg (Bool.eq_false_iff.mp (positionKnown_unhomed h))

end Sys2Proof.Machine

/-! ### The statement -/

open Sys2Proof.Machine

/-- Settles O45: the owner's answer in each case fills the slot, and Unhomed leaves no position known; only the carriage's
state and the record of its position change before the answer, so the last fault, the counters and the run stay. -/
theorem clearFaultLeavesTheCarriageUnhomed : Obligations.ClearFaultLeavesTheCarriageUnhomed := by
  intro s running heard empty
  refine ⟨fun notHalted => ?refused, fun halted => ⟨?done, ?position, rfl, rfl, rfl, rfl⟩⟩
  case refused =>
    exact exec_clearFault_empty running heard empty (clearFault_of_not_halted notHalted)
  case done =>
    exact exec_clearFault_empty running heard empty (clearFault_of_halted halted)
  case position =>
    exact knownPosition_unhomed rfl

end

section
/-! ACKNOWLEDGE (R152): what its owner answers for each state of the rule in the slot, and why the effects formed again
hold CableInhibit exactly when they held it before, so that neither the cableway nor the run takes anything up. -/

namespace Sys2Proof.Machine

/-! ### The rule in a slot -/

theorem RuleTable.rule_eq_get (t : RuleTable) (k : Fin Config.rules) : t.rule k.val = t.get k := by
  rw [RuleTable.rule, Vector.getElem?_eq_getElem k.isLt]
  rfl

theorem RuleTable.put_eq_set (t : RuleTable) (k : Fin Config.rules) (r : Option Rule) :
    t.put k.val r = t.set k.val r k.isLt := by
  refine Vector.ext fun i hi => ?_
  rw [RuleTable.put, Vector.getElem_setIfInBounds hi, Vector.getElem_set k.isLt hi]

theorem RuleTable.get_set_same (t : RuleTable) (k : Fin Config.rules) (r : Option Rule) :
    Vector.get (t.set k.val r k.isLt) k = r :=
  Vector.getElem_set_self k.isLt

theorem RuleTable.get_set_other (t : RuleTable) {k i : Fin Config.rules} (r : Option Rule) (h : k ≠ i) :
    Vector.get (t.set k.val r k.isLt) i = t.get i :=
  Vector.getElem_set_ne k.isLt i.isLt (Fin.val_ne_of_ne h)

/-! ### The contributors to an item (R158) -/

/-- The contributors are read off the slots in order. -/
theorem RuleTable.contributors_eq (t : RuleTable) (gives : Rule → Bool) :
    t.contributors gives =
      ((List.finRange Config.rules).filter fun i => ((t.get i).map gives).getD false).map Fin.val := by
  rw [RuleTable.contributors, RuleTable.slots, List.filter_map, List.map_map]
  rfl

/-- A rule replaced by one that gives an item exactly when it did leaves the contributors to that item. -/
theorem RuleTable.contributors_set {t : RuleTable} {k : Fin Config.rules} {r r' : Rule} {gives : Rule → Bool}
    (before : t.get k = some r) (same : gives r' = gives r) :
    RuleTable.contributors (t.set k.val (some r') k.isLt) gives = t.contributors gives := by
  rw [RuleTable.contributors_eq, RuleTable.contributors_eq]
  congr 1
  refine List.filter_congr fun i _ => ?_
  by_cases h : k = i
  · subst h
    rw [RuleTable.get_set_same, before, Option.map_some, Option.map_some, same]
  · rw [RuleTable.get_set_other t _ h]

/-! ### The effect set formed again (R158 to R163) -/

/-- R141, R158, R160, R162, R163: a Warning Unit formed again meets the law of the effects. -/
theorem effectsLaw_of_form (s : State) (w : WarningUnit) : EffectsLaw (s.setWarning w.form) :=
  ⟨rfl, rfl, rfl, rfl, rfl⟩

/-- R164, R165: where CableInhibit keeps its contributors it is neither entered nor left, and forming the effects
changes the Warning Unit alone. -/
theorem formEffects_of_inhibit_kept {s : State}
    (kept : (formEffectSet s.warning.rules).cableInhibit = s.warning.effects.cableInhibit) :
    formEffects s = s.setWarning s.warning.form := by
  have inhibited : (s.setWarning s.warning.form).inhibited = s.inhibited :=
    congrArg (fun l : List Nat => !l.isEmpty) kept
  unfold formEffects
  dsimp only
  rw [inhibited, if_neg (by simp), if_neg (by simp)]

/-! ### The rule an acknowledgement leaves (R152) -/

theorem Rule.acknowledge_eq_none_iff (r : Rule) :
    r.acknowledge = none ↔ r.state = .disarmed ∨ r.state = .armed ∨ r.state = .acknowledged := by
  unfold Rule.acknowledge
  cases r.state <;> simp

theorem Rule.acknowledge_eq_some_iff (r r' : Rule) :
    r.acknowledge = some r' ↔
      (r.state = .tripped ∧ r' = { r with state := .acknowledged }) ∨
      (r.state = .latched ∧ r' = { r with state := .armed, tripCount := 0, clearCount := 0 }) := by
  unfold Rule.acknowledge Rule.arm
  cases r.state <;> simp [eq_comm]

/-- R158: a Tripped rule gives its flags when Acknowledged too, and neither a Latched nor an Armed rule gives any. -/
theorem Rule.givesFlag_acknowledge {r r' : Rule} (flag : EffectFlags → Bool) (h : r.acknowledge = some r') :
    r'.givesFlag flag = r.givesFlag flag := by
  unfold Rule.givesFlag
  rcases (Rule.acknowledge_eq_some_iff r r').mp h with ⟨tripped, rfl⟩ | ⟨latched, rfl⟩
  · rw [tripped]
    rfl
  · rw [latched]
    rfl

/-! ### What ACKNOWLEDGE answers (R152) -/

theorem onRuleSlot_none {slot : Word} (s : State) (act : Nat → Option Rule → Taken)
    (h : slotOf Config.rules slot = none) : onRuleSlot (beWord slot) s act = badField s 0 := by
  unfold onRuleSlot
  rw [readWords_beWord]
  dsimp only
  rw [h]

theorem onRuleSlot_some {slot : Word} {k : Fin Config.rules} (s : State) (act : Nat → Option Rule → Taken)
    (h : slot.toInt = k.val) : onRuleSlot (beWord slot) s act = act k.val (s.warning.rules.get k) := by
  have named : slotOf Config.rules slot = some k.val := by
    rw [slotOf_some (by omega) (by omega), h, Int.toNat_natCast]
  unfold onRuleSlot
  rw [readWords_beWord]
  dsimp only
  rw [named, ← RuleTable.rule_eq_get]

theorem acknowledge_outside {slot : Word} (s : State) (h : slot.toInt < 0 ∨ 15 < slot.toInt) :
    acknowledge (beWord slot) s = badField s 0 :=
  onRuleSlot_none s _ (slotOf_none h)

theorem acknowledge_not_active {slot : Word} {k : Fin Config.rules} {s : State} (hk : slot.toInt = k.val)
    (h : (s.warning.rules.get k).bind Rule.acknowledge = none) :
    acknowledge (beWord slot) s = refused s .notActive 0 := by
  rw [acknowledge, onRuleSlot_some s _ hk, h]

theorem acknowledge_active {slot : Word} {k : Fin Config.rules} {s : State} {r r' : Rule} (hk : slot.toInt = k.val)
    (before : s.warning.rules.get k = some r) (h : r.acknowledge = some r') :
    acknowledge (beWord slot) s =
      done (formEffects (s.setRules (s.warning.rules.set k.val (some r') k.isLt))) (ruleBytes k.val (some r')) := by
  rw [acknowledge, onRuleSlot_some s _ hk, before, Option.bind_some, h]
  dsimp only
  rw [RuleTable.put_eq_set]

/-- R152, R164, R165: of a state whose effects are those of its rules, a taken ACKNOWLEDGE changes the Warning Unit
alone, since the acknowledged rule gives CableInhibit exactly when it did. -/
theorem formEffects_acknowledged {s : State} {k : Fin Config.rules} {r r' : Rule}
    (before : s.warning.rules.get k = some r) (h : r.acknowledge = some r') (law : EffectsLaw s) :
    formEffects (s.setRules (s.warning.rules.set k.val (some r') k.isLt)) =
      s.setWarning (WarningUnit.form { s.warning with rules := s.warning.rules.set k.val (some r') k.isLt }) := by
  obtain ⟨effects, -⟩ := law
  refine formEffects_of_inhibit_kept ?_
  rw [setRules_warning_effects, setRules_warning_rules, effects]
  exact RuleTable.contributors_set before (Rule.givesFlag_acknowledge EffectFlags.cableInhibit h)

/-- R152, R173: into an empty slot, ACKNOWLEDGE leaves what its owner leaves and answers what its owner replies. -/
theorem exec_acknowledge_empty {slot : Word} {s : State} {taken : Taken} (running : s.resetHeld = false)
    (heard : s.port.ignoring = false) (empty : s.port.slot = none) (owned : acknowledge (beWord slot) s = taken) :
    exec (.acknowledge (beWord slot)) s =
      .next (taken.state.fillSlot (taken.reply.answer RequestName.acknowledge.code)) :=
  owned ▸ exec_request_empty (.acknowledge (beWord slot)) .acknowledge (beWord slot) s rfl running heard empty
    (by rw [beWord_length]; decide)

end Sys2Proof.Machine

/-! ### The statement -/

open Sys2Proof Sys2Proof.Machine

/-- Settles O58: the owner's answer in each case fills the slot; a taken acknowledgement leaves the Warning Unit formed
again from the rules with the one replaced, and nothing else changed. -/
theorem acknowledgeActsOnTheState : Obligations.AcknowledgeActsOnTheState := by
  intro slot s running heard empty
  refine ⟨fun outside => ?badField, fun k hk =>
    ⟨fun inactive => ?notActive, fun r r' before active law => ?taken⟩⟩
  case badField =>
    exact exec_acknowledge_empty running heard empty (acknowledge_outside s outside)
  case notActive =>
    have nothing : (s.warning.rules.get k).bind Rule.acknowledge = none :=
      Option.bind_eq_none_iff.mpr fun r hr => (Rule.acknowledge_eq_none_iff r).mpr (inactive r hr)
    exact exec_acknowledge_empty running heard empty (acknowledge_not_active hk nothing)
  case taken =>
    have left : r.acknowledge = some r' := (Rule.acknowledge_eq_some_iff r r').mpr active
    have owned := acknowledge_active hk before left
    rw [formEffects_acknowledged before left law] at owned
    exact ⟨_, exec_acknowledge_empty running heard empty owned, rfl, effectsLaw_of_form s _⟩

end

section
/-! What every edit of the station leaves to the cableway: each Kept edit as an edit of one block followed by operations
of the cableway and the run, and the laws that read the cableway alone. -/

namespace Sys2Proof.Machine

/-! ### Edits of one block -/

theorem putChannel_frame (s : State) (i : ChannelNumber) (c : Channel) :
    CableFrame (s.setChannels (s.channels.set i.val c i.isLt)) (s.putChannel i c) :=
  raiseIf_frame _ _ .channelChanged (by decide)

/-- R2: a level change replaces the record of its channel, or changes nothing. -/
theorem quadratureChange_frame (i : ChannelNumber) (e : QuadratureEdge) (s : State) :
    ∃ v, CableFrame (s.setChannels v) (quadratureChange i e s) := by
  unfold quadratureChange
  dsimp only
  split
  · exact ⟨_, putChannel_frame _ _ _⟩
  · exact ⟨s.channels, CableFrame.refl s⟩

theorem markEdge_frame (i : ChannelNumber) (e : Edge) (s : State) :
    ∃ v, CableFrame (s.setChannels v) (markEdge i e s) := by
  unfold markEdge
  dsimp only
  split
  · split <;> exact ⟨_, putChannel_frame _ _ _⟩
  · exact ⟨_, putChannel_frame _ _ _⟩

theorem frequencyPulse_frame (i : ChannelNumber) (s : State) :
    ∃ v, CableFrame (s.setChannels v) (frequencyPulse i s) := by
  unfold frequencyPulse
  dsimp only
  split
  · exact ⟨_, putChannel_frame _ _ _⟩
  · exact ⟨s.channels, CableFrame.refl s⟩

theorem gateCompletion_frame (i : ChannelNumber) (s : State) :
    ∃ v, CableFrame (s.setChannels v) (gateCompletion i s) := by
  unfold gateCompletion
  dsimp only
  split
  · exact ⟨_, putChannel_frame _ _ _⟩
  · exact ⟨s.channels, CableFrame.refl s⟩

theorem settlingTimerExpiry_frame (i : ChannelNumber) (s : State) :
    ∃ v, CableFrame (s.setChannels v) (settlingTimerExpiry i s) := by
  unfold settlingTimerExpiry
  dsimp only
  split
  · exact ⟨_, putChannel_frame _ _ _⟩
  · exact ⟨s.channels, CableFrame.refl s⟩

theorem draftChange_frame (d : List Point) (s : State) :
    ∃ r, CableFrame (s.setRating r) (draftChange d s) := by
  unfold draftChange
  split
  · exact ⟨_, CableFrame.refl _⟩
  · exact ⟨_, CableFrame.of_raise _ _ (by decide)⟩

theorem adoptionCompletion_frame (s : State) : ∃ r, CableFrame (s.setRating r) (adoptionCompletion s) := by
  unfold adoptionCompletion
  split
  · exact ⟨s.rating, CableFrame.refl s⟩
  · split <;> exact ⟨_, CableFrame.of_raise _ _ (by decide)⟩

/-- R76, R77: an acceptance retargets a band or places one, and changes the shift table alone. -/
theorem acceptShift_state {s : State} {id : BitVec 16} {mean proposal : Int} {q : Placement}
    (h : acceptShift s id mean proposal = .ok q) : ∃ t, q.state = s.setBands t := by
  unfold acceptShift at h
  split at h
  · cases h
  · split at h
    · cases h
      exact ⟨_, rfl⟩
    · dsimp only at h
      split at h
      · cases h
      · split at h
        · cases h
        · cases h
          exact ⟨_, rfl⟩

theorem patternPhaseEnd_eq (s : State) :
    ∃ p n, patternPhaseEnd s = s.setWarning { s.warning with phase := p, phaseElapsed := n } := by
  unfold patternPhaseEnd
  split <;> exact ⟨_, _, rfl⟩

/-- R180: a settings write changes the settings and the channels, and then what the cableway takes up. -/
theorem applySettings_frame (t : Settings) (s : State) :
    ∃ v n, CableFrame (((s.setSettings t).setChannels v).setFreeReads n) (applySettings t s) := by
  have after : ∀ u : State, u.settings = t → (∃ v, CableFrame ((s.setSettings t).setChannels v) u) →
      ∃ v n, CableFrame (((s.setSettings t).setChannels v).setFreeReads n) (retestCable s.settings u) := by
    rintro u - ⟨v, h⟩
    have counted : CableFrame (((s.setSettings t).setChannels v).setFreeReads (u.freeReads + 1))
        (u.setFreeReads (u.freeReads + 1)) := { h with freeReads := rfl }
    exact ⟨v, u.freeReads + 1, counted.trans (retestCable_frame s.settings u)⟩
  unfold applySettings whenChanged
  split
  · exact after _ (retestChannels_frame _).settings ⟨_, retestChannels_frame _⟩
  · exact after _ rfl ⟨s.channels, CableFrame.refl _⟩

/-! ### Laws of the cableway -/

theorem second_frame {δ : Type} (d : Drive δ) : DriveFrame d d.second := by
  unfold Drive.second
  split <;> exact ⟨rfl, id⟩

theorem second_active {δ : Type} (d : Drive δ) : d.second.active = d.active := by
  unfold Drive.second
  split <;> rfl

/-- A property of the cableway, its settings, the effects and the strap that the cableway's own edits keep. -/
structure KeptByCableway (P : State → Prop) : Prop where
  reads : ∀ s t : State, t.cable = s.cable → t.settings = s.settings → t.warning.effects = s.warning.effects →
    t.port.cablewayFitted = s.port.cablewayFitted → P s → P t
  frame : ∀ s t, CableFrame s t → P s → P t
  form : ∀ s, P s → P (formEffects s)
  reset : ∀ pin s, P s → P (takeReset pin s)
  settings : ∀ t s, P s → P (applySettings t s)
  boundary : ∀ s, P s → P (drivePeriodBoundary s).state
  contact : ∀ c v s, P s → P (contactChange c v s).state

namespace KeptByCableway

variable {P : State → Prop}

theorem raiseIf (K : KeptByCableway P) (s : State) (b : Bool) (r : Reason) (h : P s) : P (s.raiseIf b r) :=
  K.reads s _ (by simp) (by simp) (by simp) (by simp) h

theorem channels (K : KeptByCableway P) {s t : State} (f : ∃ v, CableFrame (s.setChannels v) t) (h : P s) : P t := by
  obtain ⟨v, f⟩ := f
  exact K.frame _ _ f (K.reads s _ rfl rfl rfl rfl h)

theorem rating (K : KeptByCableway P) {s t : State} (f : ∃ r, CableFrame (s.setRating r) t) (h : P s) : P t := by
  obtain ⟨r, f⟩ := f
  exact K.frame _ _ f (K.reads s _ rfl rfl rfl rfl h)

theorem evaluate (K : KeptByCableway P) (s : State) (h : P s) : P (evaluate s) :=
  K.form _ (K.raiseIf _ _ _ (K.raiseIf _ _ _ (K.reads s _ rfl rfl rfl rfl h)))

/-- R40, R121, R148: in whichever order the two consumers take a publication. -/
theorem publication (K : KeptByCableway P) (s : State) (h : P s) : P (consumePublication s) := by
  have counted : P (s.setFreeReads (s.freeReads + 1)) := K.reads s _ rfl rfl rfl rfl h
  have gauging : ∀ u, P u → P (gaugingTakesPublication u) := fun u => K.frame _ _ (gaugingTakesPublication_frame u)
  unfold consumePublication
  refine chooseOutcome_of_all _ _ _ (K.evaluate _ (gauging _ counted)) fun o ho => ?_
  rw [List.mem_singleton.mp ho]
  exact gauging _ (K.evaluate _ counted)

theorem interval (K : KeptByCableway P) (s : State) (h : P s) : P (stageIntervalExpiry s) :=
  K.publication _ (K.frame _ _ (settle_frame _ _) (K.reads s _ rfl rfl rfl rfl h))

/-- R107: a second counts the jam timers and turns no drive on. -/
theorem second (K : KeptByCableway P) (s : State) (h : P s) : P (clockSecond s) := by
  have timed : CableFrame s
      (s.setCable { s.cable with traverse := s.cable.traverse.second, hoist := s.cable.hoist.second }) :=
    CableFrame.of_cable s _ rfl (second_frame _) (second_frame _)
      (by simp only [OneDriveLaw, setCable_cable, second_active]; exact id)
  have effects : s.warning.second.effects = s.warning.effects := by
    unfold WarningUnit.second
    split <;> rfl
  exact K.reads
    (s.setCable { s.cable with traverse := s.cable.traverse.second, hoist := s.cable.hoist.second }) _ rfl rfl effects rfl
    (K.frame _ _ timed h)

/-- Laws of the cableway are kept by every edit. -/
theorem kept (K : KeptByCableway P) : Kept P where
  frame := K.frame
  pending s _ := K.reads s _ rfl rfl rfl rfl
  slot s _ := K.reads s _ rfl rfl rfl rfl
  undriven s := K.reads s _ rfl rfl rfl rfl
  ignored s := K.reads s _ rfl rfl rfl rfl
  overrun s := K.reads s _ rfl rfl rfl rfl
  fetch n s := by
    unfold fetchFrame
    dsimp only
    split
    · exact K.reads s _ rfl rfl rfl rfl
    · split <;> exact K.reads s _ rfl rfl rfl rfl
  reset := K.reset
  attention s _ := K.reads s _ rfl rfl rfl rfl
  mask s _ _ _ := K.reads s _ rfl rfl rfl rfl
  cursor s _ _ := K.reads s _ rfl rfl rfl rfl
  clock s _ := K.reads s _ rfl rfl rfl rfl
  settings s _ _ _ _ _ := K.settings _ s
  configured s i c _ := K.channels ⟨_, putChannel_frame s i c⟩
  corrected s i _ _ := K.channels ⟨_, putChannel_frame s i _⟩
  pendingSetup s _ _ := K.reads s _ rfl rfl rfl rfl
  draft s d _ := K.rating (draftChange_frame d s)
  adoptionRequest s _ := K.reads s _ rfl rfl rfl rfl
  band s _ _ _ _ _ _ _ _ := K.reads s _ rfl rfl rfl rfl
  bandRetired s _ _ _ _ := K.reads s _ rfl rfl rfl rfl
  verticals s _ _ _ := K.reads s _ rfl rfl rfl rfl
  meter s _ := K.reads s _ rfl rfl rfl rfl
  newRun s _ _ _ _ := K.reads s _ rfl rfl rfl rfl
  acceptance s id mean proposal q hq h := by
    obtain ⟨t, e⟩ := acceptShift_state hq
    rw [e]
    exact K.reads s _ rfl rfl rfl rfl h
  ruleDefined s _ _ _ _ _ := K.reads s _ rfl rfl rfl rfl
  ruleOut s _ _ _ h := K.form _ (K.raiseIf _ _ _ (K.reads s _ rfl rfl rfl rfl h))
  ruleAcknowledged s _ _ h := K.form _ (K.reads s _ rfl rfl rfl rfl h)
  quadrature i e s := K.channels (quadratureChange_frame i e s)
  mark i e s := K.channels (markEdge_frame i e s)
  pulse i s := K.channels (frequencyPulse_frame i s)
  gate i s := K.channels (gateCompletion_frame i s)
  settling i s := K.channels (settlingTimerExpiry_frame i s)
  interval := K.interval
  ramp s := K.reads s _ rfl rfl rfl rfl
  adoption s := K.rating (adoptionCompletion_frame s)
  second := K.second
  boundary := K.boundary
  contact := K.contact
  phase s h := by
    obtain ⟨p, n, e⟩ := patternPhaseEnd_eq s
    rw [e]
    exact K.reads s _ rfl rfl rfl rfl h

end KeptByCableway

end Sys2Proof.Machine

end

section
/-! The laws of the drives that every step keeps: carry (R104), inhibit (R111), strap (R112) and one drive (R93). -/

namespace Sys2Proof.Machine

/-! ### A drive at a boundary -/

/-- R93: a drive on after a boundary was on before it or has started in a direction it may take. -/
theorem atBoundary_on_cases {δ : Type} (d : Drive δ) (may : δ → Bool) (duty : Int)
    (h : (d.atBoundary may duty).on = true) :
    (d.on = true ∧ (d.atBoundary may duty).way = d.way) ∨ may (d.atBoundary may duty).way = true := by
  unfold Drive.atBoundary at h ⊢
  split
  · split
    · next hm => exact Or.inr hm
    · next hs hm => exact Or.inl ⟨by simpa only [hs, if_neg hm] using h, rfl⟩
  · next hs =>
    split
    · next hon => exact Or.inl ⟨hon, rfl⟩
    · next hon => exact absurd (by simpa only [hs, if_neg hon] using h) hon

theorem atBoundary_active {δ : Type} (d : Drive δ) (may : δ → Bool) (duty : Int) :
    (d.atBoundary may duty).active = d.active := by
  unfold Drive.atBoundary Drive.active Drive.begin
  split
  · next h => split <;> simp [h]
  · split <;> simp_all

/-- R112: a drive that may start in no direction and is off stays as it is. -/
theorem atBoundary_idle {δ : Type} {d : Drive δ} {may : δ → Bool} (duty : Int) (hm : ∀ way, may way = false)
    (ho : d.on = false) : d.atBoundary may duty = d := by
  cases hs : d.start with
  | none => exact atBoundary_off may duty hs ho
  | some way => exact atBoundary_waits hs (hm way)

/-! ### Contact changes -/

theorem asserted_withLevel {s : State} {c k : Contact} (v : Level) (h : k ≠ c) :
    (s.setCable { s.cable with contacts := withLevel s.cable.contacts c v }).asserted k = s.asserted k := by
  cases c <;> cases k <;> first
    | exact absurd rfl h
    | rfl

/-- R97: a contact change takes the level and then acts as the cableway does. -/
theorem contactChange_frame (c : Contact) (v : Level) (s : State) :
    CableFrame (s.setCable { s.cable with contacts := withLevel s.cable.contacts c v }) (contactChange c v s).state := by
  unfold contactChange
  split
  · next h =>
    have same : withLevel s.cable.contacts c v = s.cable.contacts := by
      rw [← h]
      cases c <;> rfl
    rw [same]
    exact CableFrame.refl s
  · dsimp only
    cases c with
    | home =>
      dsimp only
      split
      · exact homeEdge_frame _
      · exact contactTests_frame _
    | top => exact contactTests_frame _
    | surface =>
      dsimp only
      split
      · exact wetEdge_frame _
      · exact CableFrame.refl _
    | bottom => exact contactTests_frame _
    | snag => exact snagTest_frame _

/-! ### The carry law (R104) -/

theorem CarryLaw.of_frame {s t : State} (f : CableFrame s t) (h : CarryLaw s) : CarryLaw t := fun on => by
  rw [asserted_congr .top f.contacts f.settings]
  exact h (f.traverse.2 on)

theorem enforceCarry_carryLaw (s : State) : CarryLaw (enforceCarry s) := by
  unfold enforceCarry
  split
  · next h => exact fun _ => h
  · intro on
    cases on

/-- R104: after the tests on asserted contacts the carry law holds, whatever held before. -/
theorem contactTests_carryLaw (s : State) : CarryLaw (contactTests s).state :=
  (enforceCarry_carryLaw s).of_frame (contactEnds_frame _)

theorem contactChange_carryLaw (c : Contact) (v : Level) (s : State) (h : CarryLaw s) :
    CarryLaw (contactChange c v s).state := by
  by_cases hc : c = .top
  · subst hc
    unfold contactChange
    split
    · exact h
    · exact contactTests_carryLaw _
  · refine CarryLaw.of_frame (contactChange_frame c v s) fun on => ?_
    rw [asserted_withLevel v (Ne.symm hc)]
    exact h on

/-- Actions that keep a property and one that brings it about leave it, in whatever order they are made. -/
theorem inTurn_brings {P : State → Prop} {fs : List (State → State)} {f : State → State} (hf : f ∈ fs)
    (brings : ∀ s, P (f s)) (keeps : ∀ g ∈ fs, ∀ s, P s → P (g s)) (s : State) : P (inTurn fs s) := by
  have after : ∀ (gs : List (State → State)) (u : State), (∀ g ∈ gs, ∀ s, P s → P (g s)) → P u → P (inTurn gs u) := by
    intro gs
    induction gs with
    | nil => exact fun _ _ h => h
    | cons g gs ih =>
      exact fun u k h => ih _ (fun x hx => k x (List.mem_cons_of_mem _ hx)) (k g List.mem_cons_self u h)
  induction fs generalizing s with
  | nil => cases hf
  | cons g gs ih =>
    have keeps' : ∀ x ∈ gs, ∀ s, P s → P (x s) := fun x hx => keeps x (List.mem_cons_of_mem _ hx)
    rcases List.mem_cons.mp hf with rfl | hg
    · exact after gs _ keeps' (brings s)
    · exact ih hg keeps' (g s)

theorem settingsDiffer_of_mem {x : Setting} {xs : List Setting} {t t' : Settings} (hx : x ∈ xs)
    (h : t.read x ≠ t'.read x) : settingsDiffer xs t t' = true :=
  List.any_eq_true.mpr ⟨x, hx, bne_iff_ne.mpr h⟩

/-- R180: the tests that a settings write brings about in the cableway, in one of their orders. -/
def cableTests (before now : Settings) : List (State → State) :=
  [whenChanged [.jamTimeout] before now fun t => deliver (jamTest t),
   whenChanged [.snagLevel] before now fun t => deliver (snagTest t),
   whenChanged [.homeLevel, .topLevel, .surfaceLevel, .bottomLevel, .surfaceSearchLimit] before now fun t =>
     deliver (contactTests t)]

/-- LOG 10: what every order of the tests leaves is left, whichever order is taken. -/
theorem retestCable_of_orders {P : State → Prop} {before : Settings} {s : State}
    (h : ∀ fs, (∀ f, f ∈ fs ↔ f ∈ cableTests before s.settings) → P (inTurn fs (s.setFreeReads (s.freeReads + 1)))) :
    P (retestCable before s) := by
  unfold retestCable
  refine chooseOutcome_of_all _ _ _ (h _ fun _ => Iff.rfl) fun o ho => ?_
  simp only [List.mem_cons, List.not_mem_nil, or_false] at ho
  rcases ho with rfl | rfl | rfl | rfl | rfl <;> refine h _ fun f => ?_ <;>
    simp only [cableTests, List.mem_cons, List.not_mem_nil, or_comm, or_left_comm]

theorem whenChanged_keeps {P : State → Prop} {f : State → State} (hf : ∀ s, P s → P (f s)) (xs : List Setting)
    (t t' : Settings) (s : State) (h : P s) : P (whenChanged xs t t' f s) := by
  unfold whenChanged
  split
  · exact hf s h
  · exact h

theorem cableTests_keep {P : State → Prop} (jam : ∀ s, P s → P (deliver (jamTest s)))
    (snag : ∀ s, P s → P (deliver (snagTest s))) (contacts : ∀ s, P s → P (deliver (contactTests s)))
    (before now : Settings) : ∀ f ∈ cableTests before now, ∀ s, P s → P (f s) := by
  simp only [cableTests, List.mem_cons, List.not_mem_nil, or_false]
  rintro f (rfl | rfl | rfl)
  exacts [whenChanged_keeps jam _ _ _, whenChanged_keeps snag _ _ _, whenChanged_keeps contacts _ _ _]

/-- R97, R104, R180: a write of the active level of Top tests the contacts, in whatever order the tests are made. -/
theorem retestCable_carryLaw {before : Settings} {s : State} (h : before.read .topLevel ≠ s.settings.read .topLevel) :
    CarryLaw (retestCable before s) := by
  have tested : ∀ u, CarryLaw (deliver (contactTests u)) := fun u =>
    (contactTests_carryLaw u).of_frame (deliver_frame _)
  refine retestCable_of_orders fun fs hfs => inTurn_brings ((hfs _).mpr (List.mem_of_getElem? (i := 2) rfl)) ?_ ?_ _
  · intro u
    rw [whenChanged, if_pos (settingsDiffer_of_mem (x := .topLevel) (by simp) h)]
    exact tested u
  · intro f hf
    exact cableTests_keep (fun u hu => hu.of_frame ((jamTest_frame u).trans (deliver_frame _)))
      (fun u hu => hu.of_frame ((snagTest_frame u).trans (deliver_frame _))) (fun u _ => tested u) _ _ f ((hfs f).mp hf)

theorem applySettings_carryLaw (t : Settings) (s : State) (h : CarryLaw s) : CarryLaw (applySettings t s) := by
  by_cases same : s.settings.read .topLevel = t.read .topLevel
  · obtain ⟨v, n, f⟩ := applySettings_frame t s
    refine CarryLaw.of_frame f fun on => ?_
    have asserted := h on
    unfold State.asserted State.setting levelSetting at asserted ⊢
    rwa [same] at asserted
  · have written : (whenChanged [.stageFloor, .stageCeiling] s.settings t retestChannels (s.setSettings t)).settings = t := by
      unfold whenChanged
      split
      · exact (retestChannels_frame _).settings
      · rfl
    exact retestCable_carryLaw (by rwa [written])

theorem drivePeriodBoundary_frame (s : State) :
    CableFrame (s.setCable { s.cable with
      traverse := s.cable.traverse.atBoundary s.mayTraverse s.traverseDuty,
      hoist := s.cable.hoist.atBoundary s.mayHoist (s.setting .hoistDuty) }) (drivePeriodBoundary s).state :=
  snagTest_frame _

theorem formEffects_keeps {P : State → Prop} (frame : ∀ s t, CableFrame s t → P s → P t)
    (warning : ∀ s w, P s → P (s.setWarning w)) (s : State) (h : P s) : P (formEffects s) :=
  frame _ _ (formEffects_frame s) (warning s _ h)

theorem takeReset_cable (pin : ResetPin) (s : State) : ∃ contacts, (takeReset pin s).cable = Cableway.reset contacts := by
  cases pin <;> exact ⟨_, rfl⟩

theorem carryLaw_kept : KeptByCableway CarryLaw where
  reads s t hc hs _ _ h := by
    unfold CarryLaw
    rw [asserted_congr .top (congrArg Cableway.contacts hc) hs, hc]
    exact h
  frame _ _ f h := h.of_frame f
  form := formEffects_keeps (fun _ _ f h => h.of_frame f) fun _ _ h => h
  reset pin s _ := by
    obtain ⟨contacts, e⟩ := takeReset_cable pin s
    unfold CarryLaw
    rw [e]
    intro on
    cases on
  settings t s h := applySettings_carryLaw t s h
  boundary s h := by
    refine CarryLaw.of_frame (drivePeriodBoundary_frame s) fun on => ?_
    have top : s.asserted .top = true := by
      rcases atBoundary_on_cases _ _ _ on with ⟨was, -⟩ | may
      · exact h was
      · unfold State.mayTraverse at may
        simp only [Bool.and_eq_true] at may
        exact may.1.2
    exact top
  contact := contactChange_carryLaw

/-! ### The inhibit law (R111) -/

theorem InhibitLaw.of_frame {s t : State} (f : CableFrame s t) (h : InhibitLaw s) : InhibitLaw t := fun inhibited => by
  obtain ⟨outward, down⟩ := h ((inhibited_congr f.warning).symm.trans inhibited)
  refine ⟨fun ⟨on, way⟩ => outward ⟨f.traverse.2 on, f.traverse.1.symm.trans way⟩,
    fun ⟨on, way⟩ => down ⟨f.hoist.2 on, f.hoist.1.symm.trans way⟩⟩

/-- R111: the instant CableInhibit enters no drive is left on Outward or Down. -/
theorem heldBack_inhibitLaw (s : State) : InhibitLaw (s.setCable s.cable.heldBack) := fun _ => by
  unfold Cableway.heldBack
  simp only [setCable_cable]
  constructor
  · split
    · exact fun h => Bool.false_ne_true h.1
    · next hn => exact fun h => hn (Or.inl ⟨h.2, h.1⟩)
  · split
    · exact fun h => Bool.false_ne_true h.1
    · next hn => exact fun h => hn (Or.inl ⟨h.2, h.1⟩)

theorem inhibitCable_after_heldBack (s : State) : CableFrame (s.setCable s.cable.heldBack) (inhibitCable s).state := by
  unfold inhibitCable
  dsimp only
  split
  · split
    · exact CableFrame.refl _
    · exact endMovement_frame _ _ _
  · exact endMovement_frame _ _ _
  · exact beginPhase_frame _ _ _
  · exact CableFrame.refl _

theorem inhibitEnters_inhibitLaw (s : State) : InhibitLaw (inhibitEnters s) :=
  (heldBack_inhibitLaw s).of_frame
    (((inhibitCable_after_heldBack s).trans (deliver_frame _)).trans (inhibitRun_frame _))

theorem formEffects_inhibitLaw (s : State) (h : InhibitLaw s) : InhibitLaw (formEffects s) := by
  unfold formEffects
  dsimp only
  split
  · exact inhibitEnters_inhibitLaw _
  · next stays =>
    have formed : InhibitLaw (s.setWarning s.warning.form) := fun inhibited =>
      h (by
        by_contra before
        exact stays ⟨Bool.eq_false_iff.mpr before, inhibited⟩)
    split
    · exact formed.of_frame (startIfReady_frame _)
    · exact formed

theorem inhibitLaw_kept : KeptByCableway InhibitLaw where
  reads s t hc _ hw _ h := by
    unfold InhibitLaw State.inhibited
    rw [hc, hw]
    exact h
  frame _ _ f h := h.of_frame f
  form := formEffects_inhibitLaw
  reset pin s _ := by
    obtain ⟨contacts, e⟩ := takeReset_cable pin s
    unfold InhibitLaw
    rw [e]
    exact fun _ => ⟨fun on => Bool.false_ne_true on.1, fun on => Bool.false_ne_true on.1⟩
  settings t s h := by
    obtain ⟨v, n, f⟩ := applySettings_frame t s
    exact InhibitLaw.of_frame f h
  boundary s h := by
    refine InhibitLaw.of_frame (drivePeriodBoundary_frame s) fun inhibited => ?_
    obtain ⟨outward, down⟩ := h inhibited
    have inhibited : s.inhibited = true := inhibited
    refine ⟨fun ⟨on, way⟩ => ?_, fun ⟨on, way⟩ => ?_⟩
    · rcases atBoundary_on_cases _ _ _ on with ⟨was, same⟩ | may
      · exact outward ⟨was, same.symm.trans way⟩
      · rw [setCable_cable] at way
        rw [way] at may
        simp [State.mayTraverse, inhibited] at may
    · rcases atBoundary_on_cases _ _ _ on with ⟨was, same⟩ | may
      · exact down ⟨was, same.symm.trans way⟩
      · rw [setCable_cable] at way
        rw [way] at may
        simp [State.mayHoist, inhibited] at may
  contact c v s h := InhibitLaw.of_frame (contactChange_frame c v s) h

/-! ### The strap law (R112) -/

theorem StrapLaw.of_frame {s t : State} (f : CableFrame s t) (h : StrapLaw s) : StrapLaw t := fun unfitted => by
  have still := h (by rw [← unfitted, State.fitted, State.fitted, f.cablewayFitted])
  obtain ⟨traverse, hoist, inward, up⟩ := still
  exact ⟨Bool.eq_false_iff.mpr fun on => Bool.eq_false_iff.mp traverse (f.traverse.2 on),
    Bool.eq_false_iff.mpr fun on => Bool.eq_false_iff.mp hoist (f.hoist.2 on),
    f.traverse.1.trans inward, f.hoist.1.trans up⟩

theorem strapLaw_kept : KeptByCableway StrapLaw where
  reads s t hc _ _ hf h := by
    unfold StrapLaw State.fitted
    rw [hc, hf]
    exact h
  frame _ _ f h := h.of_frame f
  form := formEffects_keeps (fun _ _ f h => h.of_frame f) fun _ _ h => h
  reset pin s _ := by
    obtain ⟨contacts, e⟩ := takeReset_cable pin s
    unfold StrapLaw
    rw [e]
    exact fun _ => ⟨rfl, rfl, rfl, rfl⟩
  settings t s h := by
    obtain ⟨v, n, f⟩ := applySettings_frame t s
    exact StrapLaw.of_frame f h
  boundary s h := by
    refine StrapLaw.of_frame (drivePeriodBoundary_frame s) fun unfitted => ?_
    have unfitted : s.fitted = false := unfitted
    obtain ⟨traverse, hoist, inward, up⟩ := h unfitted
    rw [setCable_cable, atBoundary_idle _ (fun way => by simp [State.mayTraverse, unfitted]) traverse,
      atBoundary_idle _ (fun way => by simp [State.mayHoist, unfitted]) hoist]
    exact ⟨traverse, hoist, inward, up⟩
  contact c v s h := StrapLaw.of_frame (contactChange_frame c v s) h

/-! ### One drive (R93) -/

theorem oneDriveLaw_kept : KeptByCableway OneDriveLaw where
  reads s t hc _ _ _ h := by
    unfold OneDriveLaw
    rw [hc]
    exact h
  frame _ _ f := f.oneDrive
  form := formEffects_keeps (fun _ _ f => f.oneDrive) fun _ _ h => h
  reset pin s _ := by
    obtain ⟨contacts, e⟩ := takeReset_cable pin s
    unfold OneDriveLaw
    rw [e]
    exact fun active => Bool.false_ne_true active.1
  settings t s h := by
    obtain ⟨v, n, f⟩ := applySettings_frame t s
    exact f.oneDrive h
  boundary s h := by
    refine (drivePeriodBoundary_frame s).oneDrive ?_
    simp only [OneDriveLaw, setCable_cable, atBoundary_active]
    exact h
  contact c v s h := (contactChange_frame c v s).oneDrive h

end Sys2Proof.Machine

open Sys2Proof.Machine

/-- Settles O5: the traverse starts only with Top asserted, and the tests on the contacts stop it where Top is released. -/
theorem stepKeepsTheCarryLaw : Obligations.StepKeepsTheCarryLaw := fun s t h step =>
  step_keeps carryLaw_kept.kept s t h step

/-- Settles O6: no drive starts Outward or Down under CableInhibit, and those that run are turned off as it enters. -/
theorem stepKeepsTheInhibitLaw : Obligations.StepKeepsTheInhibitLaw := fun s t h step =>
  step_keeps inhibitLaw_kept.kept s t h step

/-- Settles O8: a drive is commanded with the other turned off, and nothing else makes a drive active. -/
theorem stepKeepsOneDrive : Obligations.StepKeepsOneDrive := fun s t h step =>
  step_keeps oneDriveLaw_kept.kept s t h step

end

section
/-! What no command but RESET changes: the queue, the sampled straps and the reset pin, with the count of free values
never run back. -/

namespace Sys2Proof.Machine

/-- From s to t the queue, the straps and the reset pin are as they were, and no free value is taken back. -/
structure Steady (s t : State) : Prop where
  pending : t.pending = s.pending
  freeReads : s.freeReads ≤ t.freeReads
  resetHeld : t.resetHeld = s.resetHeld
  unitAddress : t.port.unitAddress = s.port.unitAddress
  cablewayFitted : t.port.cablewayFitted = s.port.cablewayFitted

theorem Steady.refl (s : State) : Steady s s := ⟨rfl, le_rfl, rfl, rfl, rfl⟩

theorem Steady.trans {s t u : State} (h : Steady s t) (k : Steady t u) : Steady s u :=
  ⟨k.pending.trans h.pending, h.freeReads.trans k.freeReads, k.resetHeld.trans h.resetHeld,
    k.unitAddress.trans h.unitAddress, k.cablewayFitted.trans h.cablewayFitted⟩

/-- `trans` with the second part first. -/
theorem Steady.after {s t u : State} (k : Steady t u) (h : Steady s t) : Steady s u := h.trans k

theorem CableFrame.steady {s t : State} (f : CableFrame s t) : Steady s t :=
  ⟨f.pending, f.freeReads.ge, f.resetHeld, f.unitAddress, f.cablewayFitted⟩

/-- Edits of one block, followed by operations of the cableway and the run, are steady. -/
theorem CableFrame.steady_of_eq {s u t : State} (f : CableFrame u t) (hp : u.pending = s.pending)
    (hf : s.freeReads ≤ u.freeReads) (hr : u.resetHeld = s.resetHeld) (ha : u.port.unitAddress = s.port.unitAddress)
    (hc : u.port.cablewayFitted = s.port.cablewayFitted) : Steady s t :=
  Steady.trans ⟨hp, hf, hr, ha, hc⟩ f.steady

theorem formEffects_steady (s : State) : Steady s (formEffects s) :=
  (formEffects_frame s).steady_of_eq rfl le_rfl rfl rfl rfl

theorem raiseIf_steady (s : State) (b : Bool) (r : Reason) : Steady s (s.raiseIf b r) := by
  cases b <;> exact ⟨rfl, le_rfl, rfl, rfl, rfl⟩

theorem setRules_steady (s : State) (t : RuleTable) : Steady s (s.setRules t) := ⟨rfl, le_rfl, rfl, rfl, rfl⟩

theorem evaluate_steady (s : State) : Steady s (evaluate s) :=
  (formEffects_steady _).after
    ((raiseIf_steady _ _ .ruleCleared).after ((raiseIf_steady _ _ .ruleTripped).after (setRules_steady s _)))

theorem takeRuleOut_steady (k : Nat) (r : Rule) (after : Option Rule) (s : State) :
    Steady s (takeRuleOut k r after s) :=
  (formEffects_steady _).after ((raiseIf_steady _ _ _).after (setRules_steady s _))

theorem consumePublication_steady (s : State) : Steady s (consumePublication s) := by
  have counted : Steady s (s.setFreeReads (s.freeReads + 1)) := ⟨rfl, Nat.le_succ _, rfl, rfl, rfl⟩
  have gauging : ∀ u, Steady u (gaugingTakesPublication u) := fun u => (gaugingTakesPublication_frame u).steady
  unfold consumePublication
  refine chooseOutcome_of_all _ _ _ (counted.trans ((gauging _).trans (evaluate_steady _))) fun o ho => ?_
  rw [List.mem_singleton.mp ho]
  exact counted.trans ((evaluate_steady _).trans (gauging _))

theorem stageIntervalExpiry_steady (s : State) : Steady s (stageIntervalExpiry s) :=
  (consumePublication_steady _).after
    ((settle_frame _ _).steady.after ⟨rfl, le_rfl, rfl, rfl, rfl⟩)

theorem applySettings_steady (t : Settings) (s : State) : Steady s (applySettings t s) := by
  have written : Steady s (whenChanged [.stageFloor, .stageCeiling] s.settings t retestChannels (s.setSettings t)) := by
    unfold whenChanged
    split
    · exact (retestChannels_frame _).steady_of_eq rfl le_rfl rfl rfl rfl
    · exact ⟨rfl, le_rfl, rfl, rfl, rfl⟩
  exact written.trans ((retestCable_frame _ _).steady_of_eq rfl (Nat.le_succ _) rfl rfl rfl)

theorem putChannel_steady (s : State) (i : ChannelNumber) (c : Channel) : Steady s (s.putChannel i c) :=
  (putChannel_frame s i c).steady_of_eq rfl le_rfl rfl rfl rfl

theorem draftChange_steady (d : List Point) (s : State) : Steady s (draftChange d s) := by
  obtain ⟨r, f⟩ := draftChange_frame d s
  exact f.steady_of_eq rfl le_rfl rfl rfl rfl

theorem fetchFrame_steady (n : Nat) (s : State) : Steady s (fetchFrame n s) := by
  unfold fetchFrame
  dsimp only
  split
  · exact ⟨rfl, le_rfl, rfl, rfl, rfl⟩
  · split <;> exact ⟨rfl, le_rfl, rfl, rfl, rfl⟩

/-- R46: a commit changes the draft, or the section and what the Armed run makes of it. -/
theorem commitEntry_steady {fields : List Word} {s t : State} (h : commitEntry fields s = .ok t) : Steady s t := by
  unfold commitEntry at h
  split at h
  · split at h
    · cases h
    · cases h
      exact draftChange_steady _ s
  · split at h
    · cases h
    · cases h
      exact (startIfReady_frame _).steady_of_eq rfl le_rfl rfl rfl rfl
  · cases h

theorem takeValues_steady (ws : List Word) (n : Nat) (s : State) : Steady s (takeValues ws n s).state := by
  induction ws generalizing n s with
  | nil => exact Steady.refl s
  | cons w ws ih =>
    have cursor : ∀ c, Steady s (s.setCursor c) := fun c => ⟨rfl, le_rfl, rfl, rfl, rfl⟩
    unfold takeValues
    dsimp only
    split
    · exact (cursor _).trans (ih _ _)
    · split
      · exact cursor _
      · next t h =>
        have advanced : Steady t (t.advanceCursor 1) := ⟨rfl, le_rfl, rfl, rfl, rfl⟩
        exact (commitEntry_steady h).trans (advanced.trans (ih _ _))

theorem beginRun_steady (c : StartCondition) (s : State) : Steady s (beginRun c s) := by
  unfold beginRun
  dsimp only
  split
  · exact (startRunning_frame _).steady_of_eq rfl le_rfl rfl rfl rfl
  · exact ⟨rfl, le_rfl, rfl, rfl, rfl⟩

theorem restartBlocks_steady (s : State) : Steady s (restartBlocks s) :=
  (((restartCable_frame s).trans (deliver_frame _)).trans (restartRun_frame _)).steady.trans ⟨rfl, le_rfl, rfl, rfl, rfl⟩

/-- R173: the owner of a request changes neither the queue nor the straps. -/
theorem owner_steady (r : RequestName) (p : List Byte) (s : State) : Steady s (owner r p s).state := by
  have turned : ∀ {x : Taken}, Turned x s → Steady s x.state := fun h => by rw [h.state]; exact Steady.refl s
  have answers : ∀ {x : Taken}, Answers x s → Steady s x.state := fun ⟨_, e⟩ => by rw [e]; exact Steady.refl s
  have taken : ∀ {x : Taken} {t : State} {b : List Byte}, x = done t b ∨ x = accepted t b → Steady s t →
      Steady s x.state := fun e h => by
    rcases e with rfl | rfl <;> exact h
  cases r with
  | identify => exact (identify_cases p s).elim turned answers
  | readAttention =>
    exact (readAttention_cases p s).elim turned fun ⟨_, e⟩ => taken (.inl e) ⟨rfl, le_rfl, rfl, rfl, rfl⟩
  | setAttentionMask =>
    exact (setAttentionMask_cases p s).elim turned fun k => k.elim answers fun ⟨_, _, _, _, e⟩ =>
      taken (.inl e) ⟨rfl, le_rfl, rfl, rfl, rfl⟩
  | setClock => exact (setClock_cases p s).elim turned fun ⟨_, _, e⟩ => taken (.inl e) ⟨rfl, le_rfl, rfl, rfl, rfl⟩
  | readClock => exact (readClock_cases p s).elim turned answers
  | writeSettings =>
    exact (writeSettings_cases p s).elim turned fun ⟨_, _, _, _, _, e⟩ => taken (.inl e) (applySettings_steady _ s)
  | readSettings => exact (readSettings_cases p s).elim turned answers
  | readStation => exact (readStation_cases p s).elim turned answers
  | restart => exact (restart_cases p s).elim turned fun ⟨_, e⟩ => taken (.inl e) (restartBlocks_steady s)
  | configureChannel =>
    exact (configureChannel_cases p s).elim turned fun ⟨_, _, e, _⟩ => taken (.inl e) (putChannel_steady s _ _)
  | setChannelStage =>
    exact (setChannelStage_cases p s).elim turned fun ⟨_, _, _, _, e⟩ => taken (.inl e) (putChannel_steady s _ _)
  | readChannel => exact (readChannel_cases p s).elim turned answers
  | setVote =>
    exact (setVote_cases p s).elim turned fun k => k.elim answers fun ⟨_, _, _, e⟩ =>
      taken (.inl e) ⟨rfl, le_rfl, rfl, rfl, rfl⟩
  | setCursor =>
    exact (setCursor_cases p s).elim turned fun k => k.elim answers fun ⟨_, _, _, _, e⟩ =>
      taken (.inl e) ⟨rfl, le_rfl, rfl, rfl, rfl⟩
  | writeFields =>
    show Steady s (writeFields p s).state
    rcases writeFields_cases p s with e | ⟨ws, -, -, e⟩
    · rw [e]
      exact Steady.refl s
    · rw [e]
      exact takeValues_steady ws 0 s
  | readEntries =>
    exact (readEntries_cases p s).elim turned fun ⟨_, _, _, e⟩ => taken (.inl e) ⟨rfl, le_rfl, rfl, rfl, rfl⟩
  | retirePoint => exact (retirePoint_cases p s).elim turned fun ⟨_, _, e⟩ => taken (.inl e) (draftChange_steady _ s)
  | copyRating => exact (copyRating_cases p s).elim turned fun ⟨_, e⟩ => taken (.inl e) (draftChange_steady _ s)
  | adoptRating =>
    exact (adoptRating_cases p s).elim turned fun ⟨_, e⟩ => taken (.inr e) ⟨rfl, le_rfl, rfl, rfl, rfl⟩
  | lookup => exact (lookup_cases p s).elim turned answers
  | defineShift =>
    exact (defineShift_cases p s).elim turned fun ⟨_, _, _, _, _, _, _, _, _, e⟩ =>
      taken (.inl e) ⟨rfl, le_rfl, rfl, rfl, rfl⟩
  | retireShift =>
    exact (retireShift_cases p s).elim turned fun ⟨_, _, _, _, _, e⟩ => taken (.inl e) ⟨rfl, le_rfl, rfl, rfl, rfl⟩
  | readShifts => exact (readShifts_cases p s).elim turned answers
  | retireVertical =>
    exact (retireVertical_cases p s).elim turned fun ⟨_, _, _, _, e⟩ =>
      taken (.inl e) ((startIfReady_frame _).steady_of_eq rfl le_rfl rfl rfl rfl)
  | homeCarriage =>
    exact (homeCarriage_cases p s).elim turned fun ⟨_, _, _, e⟩ => taken (.inr e) (beginHoming_frame s).steady
  | clearFault => exact (clearFault_cases p s).elim turned fun ⟨_, e⟩ => taken (.inl e) ⟨rfl, le_rfl, rfl, rfl, rfl⟩
  | setMeter =>
    exact (setMeter_cases p s).elim turned fun k => k.elim answers fun ⟨_, _, _, e⟩ =>
      taken (.inl e) ⟨rfl, le_rfl, rfl, rfl, rfl⟩
  | startRun => exact (startRun_cases p s).elim turned fun ⟨c, _, _, _, _, e⟩ => taken (.inr e) (beginRun_steady c s)
  | abortRun =>
    show Steady s (abortRunRequest p s).state
    rcases abortRunRequest_cases p s with h | ⟨-, e⟩ | ⟨-, e⟩
    · exact turned h
    · exact taken (.inl e) (endRun_frame _ _).steady
    · exact taken (.inl e) ((abortRun_frame _ s).trans (deliver_frame _)).steady
  | readRun => exact (readRun_cases p s).elim turned answers
  | acceptGauging =>
    refine (acceptGauging_cases p s).elim turned fun ⟨_, _, _, _, _, _, hq, e⟩ => taken (.inl e) ?_
    obtain ⟨t, placed⟩ := acceptShift_state hq
    rw [placed]
    exact ⟨rfl, le_rfl, rfl, rfl, rfl⟩
  | defineRule =>
    exact (defineRule_cases p s).elim turned fun ⟨_, _, _, _, _, _, e⟩ => taken (.inl e) ⟨rfl, le_rfl, rfl, rfl, rfl⟩
  | armRule =>
    exact (armRule_cases p s).elim turned fun ⟨_, _, _, _, _, _, e⟩ => taken (.inl e) ⟨rfl, le_rfl, rfl, rfl, rfl⟩
  | disarmRule =>
    exact (disarmRule_cases p s).elim turned fun ⟨k, r, _, _, _, _, e⟩ => taken (.inl e) (takeRuleOut_steady k r _ s)
  | acknowledge =>
    exact (acknowledge_cases p s).elim turned fun ⟨_, _, _, _, _, _, _, e⟩ =>
      taken (.inl e) ((formEffects_steady _).after (setRules_steady s _))
  | retireRule =>
    exact (retireRule_cases p s).elim turned fun ⟨k, r, _, _, _, e⟩ => taken (.inl e) (takeRuleOut_steady k r _ s)
  | readRule => exact (readRule_cases p s).elim turned answers

/-- R171 to R173: a select period changes neither the queue nor the straps. -/
theorem selectPeriod_steady (s : State) :
    (∀ code p, Steady s (takeRequest code p (ownerOfCode code) s)) ∧ ∀ bits, Steady s (selectPeriod bits s) := by
  have period := fun code p => selectPeriod_preserves (Steady s) (fun _ h => h.trans ⟨rfl, le_rfl, rfl, rfl, rfl⟩)
    (fun _ _ h => h.trans ⟨rfl, le_rfl, rfl, rfl, rfl⟩) (fun _ h => h.trans ⟨rfl, le_rfl, rfl, rfl, rfl⟩)
    (fun n u h => h.trans (fetchFrame_steady n u)) (fun r p u _ h => h.trans (owner_steady r p u)) code p s (Steady.refl s)
  exact ⟨fun code p => (period code p).1, (period 0 []).2⟩

theorem Steady.of_channels {s t : State} (h : ∃ v, CableFrame (s.setChannels v) t) : Steady s t := by
  obtain ⟨v, f⟩ := h
  exact f.steady_of_eq rfl le_rfl rfl rfl rfl

/-- No command but RESET changes the queue or the straps. -/
theorem exec_steady {c : Instr} {s t : State} (h : ∀ pin, c ≠ .reset pin) (he : exec c s = .next t) : Steady s t := by
  have line : ∀ {act : State → State}, unlessHeld act s = .next t → Steady s (act s) → Steady s t := fun e =>
    of_unlessHeld e (Steady.refl s)
  have period : ∀ {act : State → State}, onSelectPeriod act s = .next t → Steady s (act s) → Steady s t := fun e =>
    of_onSelectPeriod e (fun _ k => k.trans ⟨rfl, le_rfl, rfl, rfl, rfl⟩) (Steady.refl s)
  cases hr : c.request with
  | some q =>
    obtain ⟨r, p⟩ := q
    rw [exec_request c r p s hr, ← ownerOfCode_code] at he
    exact period he ((selectPeriod_steady s).1 r.code p)
  | none =>
    cases c with
    | reset pin => exact absurd rfl (h pin)
    | ignoredSelectPeriod bits => exact period he ((selectPeriod_steady s).2 bits)
    | frameError bits => exact period he ((selectPeriod_steady s).2 bits)
    | overrun bits => exact period he ((selectPeriod_steady s).2 bits)
    | unknownRequest code p => exact period he ((selectPeriod_steady s).1 code p)
    | fetchFrame n => exact period he (fetchFrame_steady n s)
    | quadratureChange i e => exact line he (.of_channels (quadratureChange_frame i e s))
    | markEdge i e => exact line he (.of_channels (markEdge_frame i e s))
    | frequencyPulse i => exact line he (.of_channels (frequencyPulse_frame i s))
    | gateCompletion i => exact line he (.of_channels (gateCompletion_frame i s))
    | settlingTimerExpiry i => exact line he (.of_channels (settlingTimerExpiry_frame i s))
    | stageIntervalExpiry => exact line he (stageIntervalExpiry_steady s)
    | rampExpiry => exact line he ⟨rfl, le_rfl, rfl, rfl, rfl⟩
    | adoptionCompletion =>
      obtain ⟨r, f⟩ := adoptionCompletion_frame s
      exact line he (f.steady_of_eq rfl le_rfl rfl rfl rfl)
    | clockSecond => exact line he ⟨rfl, le_rfl, rfl, rfl, rfl⟩
    | drivePeriodBoundary =>
      exact line he (((drivePeriodBoundary_frame s).trans (deliver_frame _)).steady_of_eq rfl le_rfl rfl rfl rfl)
    | traverseCountChange e => exact line he ((traverseCountChange_frame e s).trans (deliver_frame _)).steady
    | depthCountChange e => exact line he ((depthCountChange_frame e s).trans (deliver_frame _)).steady
    | contactChange c v =>
      exact line he (((contactChange_frame c v s).trans (deliver_frame _)).steady_of_eq rfl le_rfl rfl rfl rfl)
    | jam d => exact line he ((jamExpiry_frame d s).trans (deliver_frame _)).steady
    | meterPulse => exact line he (meterPulse_frame s).steady
    | dwellExpiry => exact line he (dwellExpiry_frame s).steady
    | waitExpiry => exact line he (waitExpiry_frame s).steady
    | patternPhaseEnd =>
      obtain ⟨p, n, e⟩ := patternPhaseEnd_eq s
      exact line he (by rw [e]; exact ⟨rfl, le_rfl, rfl, rfl, rfl⟩)
    | _ => cases hr

theorem unlessHeld_next (act : State → State) (s : State) : ∃ t, unlessHeld act s = .next t := ⟨_, rfl⟩

theorem onSelectPeriod_next (act : State → State) (s : State) : ∃ t, onSelectPeriod act s = .next t := ⟨_, rfl⟩

/-- Every command answers a next state: RESET, a select period, or a line or timer event. -/
theorem exec_next (c : Instr) (s : State) : ∃ t, exec c s = .next t := by
  cases hr : c.request with
  | some q => rw [exec_request c q.1 q.2 s hr]; exact onSelectPeriod_next _ s
  | none => cases c <;> exact ⟨_, rfl⟩

end Sys2Proof.Machine

open Sys2Proof Sys2Proof.Machine

/-- Settles O7: an unfitted drive does not start at a boundary, and only the rise of the reset pin samples the straps. -/
theorem stepKeepsTheStraps : Obligations.StepKeepsTheStraps := by
  refine ⟨fun s t h step => step_keeps strapLaw_kept.kept s t h step, fun c s t notRise he => ?_⟩
  by_cases hc : ∃ pin, c = .reset pin
  · obtain ⟨pin, rfl⟩ := hc
    cases pin with
    | low => cases he; exact ⟨rfl, rfl⟩
    | high pins => exact absurd rfl (notRise pins)
  · have steady := exec_steady (fun pin e => hc ⟨pin, e⟩) he
    exact ⟨steady.unitAddress, steady.cablewayFitted⟩

/-- Settles O2: every arm answers a next state, and neither RESET nor a steady command touches the queue. -/
theorem everyCommandCompletes : Obligations.EveryCommandCompletes := by
  refine ⟨fun c s => ?_, fun s idle => by rw [step, idle]⟩
  obtain ⟨t, he⟩ := exec_next c s
  refine ⟨t, he, ?_⟩
  by_cases hc : ∃ pin, c = .reset pin
  · obtain ⟨pin, rfl⟩ := hc
    cases pin <;> cases he <;> exact ⟨rfl, le_rfl⟩
  · have steady := exec_steady (fun pin e => hc ⟨pin, e⟩) he
    exact ⟨steady.pending, steady.freeReads⟩

end

section
/-! The laws of the records that every step keeps: the effects (R141, R158 to R163), the settings and the bands (R65,
R179), the ratings (R42 to R44), the section (R79, R80). Each Kept edit as an edit of one record. -/

namespace Sys2Proof.Machine

/-! ### Laws of the records -/

/-- A property of the settings, the stage block, the ratings, the section, the Warning Unit and the cursor that the
edits of these keep. -/
structure KeptByRecords (P : State → Prop) : Prop where
  reads : ∀ s t : State, t.settings = s.settings → t.stage = s.stage → t.rating = s.rating →
    t.verticals.map Vertical.fixed = s.verticals.map Vertical.fixed → t.warning = s.warning →
    t.port.cursor = s.port.cursor → P s → P t
  reset : ∀ pin s, P s → P (takeReset pin s)
  cursor : ∀ s c, (CursorLaw s.port.cursor → CursorLaw c) → P s → P (s.setCursor c)
  settings : ∀ s ps, checkPairs ps = none → checkSettings s ps (applyPairs s.settings ps) = none → P s →
    P (s.setSettings (applyPairs s.settings ps))
  pendingSetup : ∀ s u, u.checks.getLsbD u.primary.val = false → P s →
    P (s.setStage { s.stage with pendingSetup := some u })
  interval : ∀ s, P s → P (s.setStage (stageIntervalExpiry s).stage)
  draft : ∀ s d, (DraftLaw s.rating.draft → ActiveLaw s.rating.active.points → CursorLaw s.port.cursor → DraftLaw d) →
    P s → P (s.setRating { s.rating with draft := d })
  adoptionRecord : ∀ s a, P s → P (s.setRating { s.rating with adoption := a })
  adopted : ∀ s n time, validateDraft s.rating.draft = none → P s →
    P (s.setRating { s.rating with active := { points := s.rating.draft, number := n, effectiveFrom := time } })
  bandsCleared : ∀ s, P s → P (s.setBands ShiftTable.empty)
  band : ∀ s k lower upper target, k < Config.shiftBands → lower < upper →
    within (-s.setting .shiftLimit) (s.setting .shiftLimit) target = true →
    s.rating.bands.clash k lower upper = false → P s →
    P (s.setBands (s.rating.bands.put k (some (definedBand s (s.rating.bands.band k) lower upper target))))
  bandRetired : ∀ s k b, k < Config.shiftBands → s.rating.bands.band k = some b → P s →
    P (s.setBands (s.rating.bands.put k (some (b.retire s.clock))))
  acceptance : ∀ s id mean proposal q, acceptShift s id mean proposal = .ok q → P s → P q.state
  ramp : ∀ s, P s → P (rampExpiry s)
  verticals : ∀ s vs, (SectionLaw s.settings s.verticals → CursorLaw s.port.cursor → SectionLaw s.settings vs) → P s →
    P (s.setVerticals vs)
  ruleDefined : ∀ s k r, k < Config.rules → (∀ q, s.warning.rules.rule k = some q → q.state = .disarmed) →
    (r.state = .disarmed ∨ r.state = .armed) → P s → P (s.setRules (s.warning.rules.put k (some r)))
  formed : ∀ s rules, P s → P (s.setWarning (WarningUnit.form { s.warning with rules := rules }))
  phase : ∀ s, P s → P (patternPhaseEnd s)
  second : ∀ s, P s → P (clockSecond s)

namespace KeptByRecords

variable {P : State → Prop}

/-- `reads`, with the state that has the property named by the proof. -/
theorem alike (K : KeptByRecords P) {s t : State} (h : P s) (hs : t.settings = s.settings) (hb : t.stage = s.stage)
    (hr : t.rating = s.rating) (hv : t.verticals = s.verticals) (hw : t.warning = s.warning)
    (hc : t.port.cursor = s.port.cursor) : P t :=
  K.reads s t hs hb hr (congrArg _ hv) hw hc h

theorem frame (K : KeptByRecords P) {s t : State} (f : CableFrame s t) : P s → P t :=
  K.reads s t f.settings f.stage f.rating f.verticals f.warning f.cursor

theorem spread (K : KeptByRecords P) {s t : State} (f : SpreadFrame s t) (h : P (s.setWarning t.warning)) : P t := by
  obtain ⟨w, n, f⟩ := f
  have hw : t.warning = w := f.warning
  rw [hw] at h
  exact K.frame f (K.alike h rfl rfl rfl rfl rfl rfl)

theorem ofChannels (K : KeptByRecords P) {s t : State} (f : ∃ v, CableFrame (s.setChannels v) t) (h : P s) : P t := by
  obtain ⟨v, f⟩ := f
  exact K.frame f (K.reads s _ rfl rfl rfl rfl rfl rfl h)

/-- R42, R56: the draft replaced, and then the adoption in flight ended. -/
theorem draftChange (K : KeptByRecords P) (s : State) (d : List Point)
    (hd : DraftLaw s.rating.draft → ActiveLaw s.rating.active.points → CursorLaw s.port.cursor → DraftLaw d) (h : P s) :
    P (draftChange d s) := by
  have replaced := K.draft s d hd h
  unfold Machine.draftChange
  split
  · exact replaced
  · exact K.alike (K.adoptionRecord _ _ replaced) rfl rfl rfl rfl rfl rfl

/-- R54: an adoption that completes takes the draft as the active rating, and may empty the shift table. -/
theorem adoption (K : KeptByRecords P) (s : State) (h : P s) : P (adoptionCompletion s) := by
  unfold adoptionCompletion
  split
  · exact h
  · next r _ =>
    split
    · exact K.alike (K.adoptionRecord s _ h) rfl rfl rfl rfl rfl rfl
    · next valid =>
      have adopted := K.adoptionRecord _ { request := none, lastOutcome := .adopted r.number }
        (K.adopted s r.number r.effectiveFrom valid h)
      by_cases clear : r.option = .clear
      · simp only [clear, if_true]
        exact K.alike (K.bandsCleared _ adopted) rfl rfl rfl rfl rfl rfl
      · simp only [clear, if_false]
        exact K.alike adopted rfl rfl rfl rfl rfl rfl

theorem settingsWrite (K : KeptByRecords P) (s : State) (ps : List (Int × Int)) (hp : checkPairs ps = none)
    (hc : checkSettings s ps (applyPairs s.settings ps) = none) (h : P s) :
    P (applySettings (applyPairs s.settings ps) s) := by
  obtain ⟨v, n, f⟩ := applySettings_frame (applyPairs s.settings ps) s
  exact K.frame f (K.alike (K.settings s ps hp hc h) rfl rfl rfl rfl rfl rfl)

theorem stageInterval (K : KeptByRecords P) (s : State) (h : P s) : P (stageIntervalExpiry s) := by
  refine K.spread (stageIntervalExpiry_spread s) ?_
  rw [stageIntervalExpiry_warning]
  exact K.formed _ _ (K.interval s h)

theorem takeRuleOut (K : KeptByRecords P) (s : State) (k : Nat) (r : Rule) (after : Option Rule) (h : P s) :
    P (takeRuleOut k r after s) := by
  refine K.spread (takeRuleOut_spread k r after s) ?_
  rw [takeRuleOut_warning]
  exact K.formed s _ h

theorem acknowledged (K : KeptByRecords P) (s : State) (k : Nat) (r : Rule) (h : P s) :
    P (formEffects (s.setRules (s.warning.rules.put k (some r)))) :=
  K.frame (formEffects_frame _) (K.formed s _ h)

theorem fetch (K : KeptByRecords P) (n : Nat) (s : State) (h : P s) : P (fetchFrame n s) := by
  unfold fetchFrame
  dsimp only
  split
  · exact K.reads s _ rfl rfl rfl rfl rfl rfl h
  · split <;> exact K.reads s _ rfl rfl rfl rfl rfl rfl h

/-- Laws of the records are kept by every edit. -/
theorem kept (K : KeptByRecords P) : Kept P where
  frame _ _ := K.frame
  pending s _ := K.reads s _ rfl rfl rfl rfl rfl rfl
  slot s _ := K.reads s _ rfl rfl rfl rfl rfl rfl
  undriven s := K.reads s _ rfl rfl rfl rfl rfl rfl
  ignored s := K.reads s _ rfl rfl rfl rfl rfl rfl
  overrun s := K.reads s _ rfl rfl rfl rfl rfl rfl
  fetch := K.fetch
  reset := K.reset
  attention s _ := K.reads s _ rfl rfl rfl rfl rfl rfl
  mask s _ _ _ := K.reads s _ rfl rfl rfl rfl rfl rfl
  cursor := K.cursor
  clock s _ := K.reads s _ rfl rfl rfl rfl rfl rfl
  settings s _ ps _ := K.settingsWrite s ps
  configured s i c _ := K.ofChannels ⟨_, putChannel_frame s i c⟩
  corrected s i _ _ := K.ofChannels ⟨_, putChannel_frame s i _⟩
  pendingSetup := K.pendingSetup
  draft := K.draftChange
  adoptionRequest := K.adoptionRecord
  band := K.band
  bandRetired := K.bandRetired
  verticals s vs _ := K.verticals s vs
  meter s _ := K.reads s _ rfl rfl rfl rfl rfl rfl
  newRun s _ _ _ _ := K.reads s _ rfl rfl rfl rfl rfl rfl
  acceptance := K.acceptance
  ruleDefined := K.ruleDefined
  ruleOut := K.takeRuleOut
  ruleAcknowledged := K.acknowledged
  quadrature i e s := K.ofChannels (quadratureChange_frame i e s)
  mark i e s := K.ofChannels (markEdge_frame i e s)
  pulse i s := K.ofChannels (frequencyPulse_frame i s)
  gate i s := K.ofChannels (gateCompletion_frame i s)
  settling i s := K.ofChannels (settlingTimerExpiry_frame i s)
  interval := K.stageInterval
  ramp := K.ramp
  adoption := K.adoption
  second := K.second
  boundary s h := K.frame (drivePeriodBoundary_frame s) (K.reads s _ rfl rfl rfl rfl rfl rfl h)
  contact c v s h := K.frame (contactChange_frame c v s) (K.reads s _ rfl rfl rfl rfl rfl rfl h)
  phase := K.phase

end KeptByRecords

/-! ### The effects (R141, R158 to R163) -/

/-- R158: a rule that is Disarmed or Armed, or an Empty slot, contributes nothing. -/
def Idle (r : Option Rule) : Prop := ∀ q, r = some q → q.state = .disarmed ∨ q.state = .armed

theorem Idle.contributes_nothing {r : Option Rule} (h : Idle r) :
    (r.map Rule.contributing).getD false = false ∧ (∀ p, (r.map (Rule.givesSiren p)).getD false = false) ∧
      ∀ flag, (r.map (Rule.givesFlag flag)).getD false = false := by
  cases r with
  | none => exact ⟨rfl, fun _ => rfl, fun _ => rfl⟩
  | some q =>
    unfold Rule.contributing Rule.givesSiren Rule.givesFlag
    rcases h q rfl with e | e <;> simp [e]

theorem RuleTable.put_get (t : RuleTable) {k : Nat} (hk : k < Config.rules) (r : Option Rule) (i : Fin Config.rules) :
    Vector.get (t.put k r) i = if i.val = k then r else t.get i := by
  have e := RuleTable.put_eq_set t ⟨k, hk⟩ r
  dsimp only at e
  rw [e]
  split
  · next h =>
    have : i = ⟨k, hk⟩ := Fin.ext h
    rw [this]
    exact RuleTable.get_set_same t ⟨k, hk⟩ r
  · next h => exact RuleTable.get_set_other t (k := ⟨k, hk⟩) r fun e => h (by rw [← e])

/-- R158: slots that contribute nothing, before and after, leave the contributors to every item. -/
theorem contributors_congr {t t' : RuleTable} {gives : Rule → Bool}
    (h : ∀ i, ((t'.get i).map gives).getD false = ((t.get i).map gives).getD false) :
    t'.contributors gives = t.contributors gives := by
  rw [RuleTable.contributors_eq, RuleTable.contributors_eq]
  exact congrArg _ (List.filter_congr fun i _ => h i)

theorem warningLevel_congr {t t' : RuleTable}
    (h : ∀ i, (t'.get i).filter Rule.contributing = (t.get i).filter Rule.contributing) :
    warningLevel t' = warningLevel t := by
  have level : ∀ u : RuleTable, warningLevel u =
      ((List.finRange Config.rules).filterMap fun i => (u.get i).filter Rule.contributing).foldr
        (fun r n => max r.level n) 0 := fun u => by
    unfold warningLevel RuleTable.slots
    rw [List.filterMap_map, List.filter_filterMap]
    rfl
  rw [level, level, List.filterMap_congr fun i _ => h i]

theorem beacon_congr {t t' : RuleTable}
    (h : ∀ i, ((t'.get i).map Rule.contributing).getD false = ((t.get i).map Rule.contributing).getD false) :
    (t'.toList.any fun r => (r.map Rule.contributing).getD false) =
      t.toList.any fun r => (r.map Rule.contributing).getD false := by
  have listed : ∀ u : RuleTable, (u.toList.any fun r => (r.map Rule.contributing).getD false) =
      (List.finRange Config.rules).any fun i => ((u.get i).map Rule.contributing).getD false := fun u => by
    rw [Bool.eq_iff_iff, List.any_eq_true, List.any_eq_true]
    constructor
    · rintro ⟨r, hr, hc⟩
      obtain ⟨i, hi, rfl⟩ := Vector.mem_iff_getElem.mp (Vector.mem_toList_iff.mp hr)
      exact ⟨⟨i, hi⟩, List.mem_finRange _, hc⟩
    · rintro ⟨i, -, hc⟩
      exact ⟨u.get i, Vector.mem_toList_iff.mpr (Vector.getElem_mem i.isLt), hc⟩
  rw [listed, listed]
  exact congrArg (List.any _) (funext h)

theorem Idle.filter_contributing {r : Option Rule} (h : Idle r) : r.filter Rule.contributing = none := by
  cases r with
  | none => rfl
  | some q =>
    have none := h.contributes_nothing.1
    simpa [Option.filter] using none

/-- R158: an idle slot that takes an idle rule leaves everything that is formed from the rules. -/
theorem form_of_idle {t : RuleTable} {k : Nat} {r : Option Rule} (hk : k < Config.rules) (before : Idle (t.rule k))
    (after : Idle r) :
    formEffectSet (t.put k r) = formEffectSet t ∧ warningLevel (t.put k r) = warningLevel t ∧
      ((t.put k r).toList.any fun r => (r.map Rule.contributing).getD false) =
        t.toList.any fun r => (r.map Rule.contributing).getD false := by
  have slot : t.get ⟨k, hk⟩ = t.rule k := (t.rule_eq_get ⟨k, hk⟩).symm
  have same : ∀ {α : Type} (f : Option Rule → α), (∀ q q', Idle q → Idle q' → f q = f q') →
      ∀ i, f ((t.put k r).get i) = f (t.get i) := fun f hf i => by
    rw [RuleTable.put_get t hk]
    split
    · next h =>
      have : i = ⟨k, hk⟩ := Fin.ext h
      rw [this, slot]
      exact hf _ _ after before
    · rfl
  have siren : ∀ p, (t.put k r).contributors (Rule.givesSiren p) = t.contributors (Rule.givesSiren p) := fun p =>
    contributors_congr (same (fun q => (q.map (Rule.givesSiren p)).getD false) fun q q' hq hq' => by
      rw [hq.contributes_nothing.2.1 p, hq'.contributes_nothing.2.1 p])
  have flag : ∀ f, (t.put k r).contributors (Rule.givesFlag f) = t.contributors (Rule.givesFlag f) := fun f =>
    contributors_congr (same (fun q => (q.map (Rule.givesFlag f)).getD false) fun q q' hq hq' => by
      rw [hq.contributes_nothing.2.2 f, hq'.contributes_nothing.2.2 f])
  refine ⟨?_, warningLevel_congr (same _ fun q q' hq hq' => ?_), beacon_congr (same (fun q => (q.map Rule.contributing).getD false)
    fun q q' hq hq' => ?_)⟩
  · simp only [formEffectSet, siren, flag]
  · rw [hq.filter_contributing, hq'.filter_contributing]
  · rw [hq.contributes_nothing.1, hq'.contributes_nothing.1]

theorem firstPhase_law (w : Siren) :
    (w = .none → firstPhase w = .off) ∧ (w = .p1 → firstPhase w = .on) := by
  cases w <;> simp [firstPhase]

/-- R161: the phase after the effects are formed is the phase of a pattern that plays on, or the first of a new one. -/
theorem form_phaseLaw (s : State) (rules : RuleTable) (h : PhaseLaw s) :
    PhaseLaw (s.setWarning (WarningUnit.form { s.warning with rules := rules })) := by
  obtain ⟨changed, kept⟩ := form_phase { s.warning with rules := rules }
  unfold PhaseLaw
  rw [setWarning_warning]
  by_cases same : (WarningUnit.form { s.warning with rules := rules }).winning = s.warning.winning
  · rw [(kept same).1, same]
    exact h
  · rw [(changed same).1]
    exact firstPhase_law _

/-- R161: a phase ends only for pattern 2 or 3, of which the phase law says nothing. -/
theorem patternPhaseEnd_law (s : State) (h : EffectsLaw s ∧ PhaseLaw s) :
    EffectsLaw (patternPhaseEnd s) ∧ PhaseLaw (patternPhaseEnd s) := by
  unfold patternPhaseEnd
  split
  · next e => exact ⟨h.1, by simp [PhaseLaw, e]⟩
  · next e => exact ⟨h.1, by simp [PhaseLaw, e]⟩
  · exact h
  · exact h

theorem warningSecond_eq (w : WarningUnit) : ∃ n, w.second = { w with phaseElapsed := n } := by
  unfold WarningUnit.second
  split
  · exact ⟨_, rfl⟩
  · exact ⟨_, rfl⟩

/-- R157, R169: after Reset there is no rule, and nothing is formed from it. -/
theorem takeReset_warning (pin : ResetPin) (s : State) : (takeReset pin s).warning = WarningUnit.reset := by
  cases pin <;> rfl

theorem reset_effectsLaw {s : State} (h : s.warning = WarningUnit.reset) : EffectsLaw s ∧ PhaseLaw s := by
  unfold EffectsLaw PhaseLaw
  rw [h]
  decide

theorem effectsLaws_congr {s t : State} (h : EffectsLaw s ∧ PhaseLaw s) (hw : t.warning = s.warning) :
    EffectsLaw t ∧ PhaseLaw t := by
  unfold EffectsLaw PhaseLaw
  rw [hw]
  exact h

theorem effectsLaws_kept : KeptByRecords fun s => EffectsLaw s ∧ PhaseLaw s where
  reads s t _ _ _ _ hw _ h := effectsLaws_congr h hw
  reset pin s _ := reset_effectsLaw (takeReset_warning pin s)
  cursor _ _ _ h := h
  settings _ _ _ _ h := h
  pendingSetup _ _ _ h := h
  interval s h := effectsLaws_congr h (setStage_warning s _)
  draft _ _ _ h := h
  adoptionRecord _ _ h := h
  adopted _ _ _ _ h := h
  bandsCleared _ h := h
  band _ _ _ _ _ _ _ _ _ h := h
  bandRetired _ _ _ _ _ h := h
  acceptance s _ _ _ _ hq h := by
    obtain ⟨t, e⟩ := acceptShift_state hq
    rw [e]
    exact h
  ramp _ h := effectsLaws_congr h rfl
  verticals _ _ _ h := h
  ruleDefined s k r hk before after h := by
    have idle : Idle (some r) := fun q hq => by
      cases hq
      exact after
    obtain ⟨effects, level, beacon⟩ := form_of_idle hk (fun q hq => .inl (before q hq)) idle
    obtain ⟨⟨he, hl, hw, hb, hr⟩, hp⟩ := h
    exact ⟨⟨he.trans effects.symm, hl.trans level.symm, hw, hb.trans beacon.symm, hr⟩, hp⟩
  formed s rules h := ⟨effectsLaw_of_form s _, form_phaseLaw s rules h.2⟩
  phase := patternPhaseEnd_law
  second s h := by
    obtain ⟨n, e⟩ := warningSecond_eq s.warning
    have ticked : EffectsLaw (s.setWarning s.warning.second) ∧ PhaseLaw (s.setWarning s.warning.second) := by
      rw [e]
      exact h
    exact effectsLaws_congr ticked rfl

/-! ### The ratings (R42 to R44) -/

theorem pairwise_of_firstDisorder {p : Point} {ps : List Point} {n : Nat} (h : firstDisorder p n ps = none) :
    (p :: ps).Pairwise fun a b => a.stage < b.stage ∧ a.discharge < b.discharge := by
  induction ps generalizing p n with
  | nil => exact List.pairwise_singleton _ _
  | cons q qs ih =>
    unfold firstDisorder at h
    split at h
    · next up =>
      have rest := ih h
      refine List.pairwise_cons.mpr ⟨fun a ha => ?_, rest⟩
      rcases List.mem_cons.mp ha with rfl | ha
      · exact up
      · obtain ⟨stage, discharge⟩ := List.rel_of_pairwise_cons rest ha
        exact ⟨up.1.trans stage, up.2.trans discharge⟩
    · cases h

/-- R43, R54: a draft that passes validation may become the active rating. -/
theorem activeLaw_of_validated {draft : List Point} (law : DraftLaw draft) (h : validateDraft draft = none) :
    ActiveLaw draft := by
  match draft, h with
  | p :: q :: rest, h =>
    refine .inr ⟨by simp, law.1, pairwise_of_firstDisorder (n := 0) ?_⟩
    simpa [validateDraft] using h

theorem takeReset_rating (pin : ResetPin) (s : State) : (takeReset pin s).rating = RatingStore.reset := by
  cases pin <;> rfl

theorem takeReset_cursor (pin : ResetPin) (s : State) : (takeReset pin s).port.cursor = Cursor.reset := by
  cases pin <;> rfl

theorem cursorLaw_reset : CursorLaw Cursor.reset := CursorLaw.set .draft 0 (by decide)

theorem ratingLaws_kept : KeptByRecords fun s =>
    DraftLaw s.rating.draft ∧ ActiveLaw s.rating.active.points ∧ CursorLaw s.port.cursor where
  reads s t _ _ hr _ _ hc h := by
    rw [hr, hc]
    exact h
  reset pin s _ := by
    rw [takeReset_rating, takeReset_cursor]
    exact ⟨⟨by decide, List.Pairwise.nil⟩, .inl rfl, cursorLaw_reset⟩
  cursor _ _ hc h := ⟨h.1, h.2.1, hc h.2.2⟩
  settings _ _ _ _ h := h
  pendingSetup _ _ _ h := h
  interval _ h := h
  draft _ _ hd h := ⟨hd h.1 h.2.1 h.2.2, h.2⟩
  adoptionRecord _ _ h := h
  adopted _ _ _ valid h := ⟨h.1, activeLaw_of_validated h.1 valid, h.2.2⟩
  bandsCleared _ h := h
  band _ _ _ _ _ _ _ _ _ h := h
  bandRetired _ _ _ _ _ h := h
  acceptance s _ _ _ _ hq h := by
    obtain ⟨t, e⟩ := acceptShift_state hq
    rw [e]
    exact h
  ramp _ h := h
  verticals _ _ _ h := h
  ruleDefined _ _ _ _ _ _ h := h
  formed _ _ h := h
  phase s h := by
    obtain ⟨p, n, e⟩ := patternPhaseEnd_eq s
    rw [e]
    exact h
  second _ h := h

/-! ### The section (R79, R80) -/

/-- R80: settings that leave every vertical in the span. -/
theorem insideSpan_of_checked {s : State} {ps : List (Int × Int)} {t : Settings} (h : checkSettings s ps t = none) :
    ∀ v ∈ s.verticals, t.read .spanStart ≤ v.distance ∧ v.distance ≤ t.read .spanEnd := by
  unfold checkSettings at h
  have inside : insideSpan (t.read .spanStart) (t.read .spanEnd) s.verticals = true := by
    by_contra outside
    simp [outside] at h
    split_ifs at h
  exact fun v hv => (within_iff _ _ _).mp (List.all_eq_true.mp inside v hv)

theorem takeReset_verticals (pin : ResetPin) (s : State) : (takeReset pin s).verticals = [] := by
  cases pin <;> rfl

theorem sectionLaws_congr {s t : State} (h : CursorLaw s.port.cursor ∧ SectionLaw s.settings s.verticals)
    (hs : t.settings = s.settings) (hv : t.verticals.map Vertical.fixed = s.verticals.map Vertical.fixed)
    (hc : t.port.cursor = s.port.cursor) :
    CursorLaw t.port.cursor ∧ SectionLaw t.settings t.verticals := by
  rw [hs, hc]
  exact ⟨h.1, h.2.of_fixed hv⟩

theorem sectionLaws_kept : KeptByRecords fun s => CursorLaw s.port.cursor ∧ SectionLaw s.settings s.verticals where
  reads s t hs _ _ hv _ hc h := sectionLaws_congr h hs hv hc
  reset pin s _ := by
    rw [takeReset_verticals, takeReset_cursor]
    exact ⟨cursorLaw_reset, by decide, List.Pairwise.nil, fun v hv => by cases hv⟩
  cursor _ _ hc h := ⟨hc h.1, h.2⟩
  settings s _ _ checked h := ⟨h.1, h.2.1, h.2.2.1, insideSpan_of_checked (s := s) checked⟩
  pendingSetup _ _ _ h := h
  interval s h := sectionLaws_congr h (setStage_settings s _) (congrArg _ (setStage_verticals s _)) (by rw [setStage_port])
  draft _ _ _ h := h
  adoptionRecord _ _ h := h
  adopted _ _ _ _ h := h
  bandsCleared _ h := h
  band _ _ _ _ _ _ _ _ _ h := h
  bandRetired _ _ _ _ _ h := h
  acceptance s _ _ _ _ hq h := by
    obtain ⟨t, e⟩ := acceptShift_state hq
    rw [e]
    exact h
  ramp _ h := sectionLaws_congr h rfl rfl rfl
  verticals _ _ hv h := ⟨h.1, hv h.2 h.1⟩
  ruleDefined _ _ _ _ _ _ h := h
  formed _ _ h := h
  phase s h := by
    obtain ⟨p, n, e⟩ := patternPhaseEnd_eq s
    rw [e]
    exact h
  second _ h := sectionLaws_congr h rfl rfl rfl

end Sys2Proof.Machine

open Sys2Proof.Machine

/-- Settles O10: whatever forms the effects forms all of them, and a rule is defined or armed only in an idle slot. -/
theorem stepKeepsTheEffects : Obligations.StepKeepsTheEffects := fun s t effects phase step =>
  step_keeps effectsLaws_kept.kept s t ⟨effects, phase⟩ step

/-- Settles O12: a commit keeps the draft's stages apart, and only a draft that passes validation is adopted. -/
theorem stepKeepsTheRatings : Obligations.StepKeepsTheRatings := fun s t draft active cursor step =>
  step_keeps ratingLaws_kept.kept s t ⟨draft, active, cursor⟩ step

/-- Settles O13: a commit keeps the section in order and within the span, and a write of the span is checked against it. -/
theorem stepKeepsTheSection : Obligations.StepKeepsTheSection := fun s t cursor table step =>
  step_keeps sectionLaws_kept.kept s t ⟨cursor, table⟩ step

end

section
/-! The settings and the shift bands (R65, R75, R179): what a write of settings leaves, what the shift table holds after
each of its edits, and that both stay lawful. -/

namespace Sys2Proof.Machine

/-! ### The store of the settings -/

theorem Setting.ofId_id (x : Setting) : Setting.ofId x.id = some x := by cases x <;> rfl

theorem Setting.id_pos (x : Setting) : 1 ≤ x.id := by cases x <;> decide

theorem Setting.id_injective {x y : Setting} (h : x.id = y.id) : x = y := by
  have e := Setting.ofId_id x
  rw [h, Setting.ofId_id y] at e
  exact (Option.some.inj e).symm

theorem Setting.id_of_ofId {n : Int} {x : Setting} (h : Setting.ofId n = some x) : (x.id : Int) = n := by
  unfold Setting.ofId at h
  simpa using List.find?_some h

theorem Setting.index_val (x : Setting) : x.index.val = x.id - 1 := by cases x <;> rfl

theorem Settings.read_write (t : Settings) (x y : Setting) (v : Int) :
    (t.write x v).read y = if x = y then v else t.read y := by
  have e : (t.write x v).read y = if x.index.val = y.index.val then v else t.read y :=
    Vector.getElem_set x.index.isLt y.index.isLt
  rw [e]
  by_cases h : x = y
  · rw [if_pos (congrArg (fun z => Fin.val (Setting.index z)) h), if_pos h]
  · have apart : x.id ≠ y.id := fun e => h (Setting.id_injective e)
    have hx := x.id_pos
    have hy := y.id_pos
    rw [if_neg h, if_neg (by rw [x.index_val, y.index_val]; omega)]

theorem Setting.admits_iff (x : Setting) (v : Int) : x.admits v = true ↔ x.row.1 ≤ v ∧ v ≤ x.row.2.1 := by
  unfold Setting.admits
  rw [Bool.and_eq_true, decide_eq_true_eq, decide_eq_true_eq]

theorem Settings.read_defaults (x : Setting) : Settings.defaults.read x = x.default := by cases x <;> rfl

/-! ### The checks of WRITE SETTINGS (R179) -/

theorem firstFailing_eq_none_iff {α : Type} (bad : α → Bool) (k : Nat) (l : List α) :
    firstFailing bad k l = none ↔ ∀ a ∈ l, bad a = false := by
  induction l generalizing k with
  | nil => simp [firstFailing]
  | cons a l ih =>
    unfold firstFailing
    cases h : bad a <;> simp [h, ih]

/-- R179 checks 2 and 4: every pair that passes names a setting and a value in its range. -/
theorem admits_of_checkPairs {ps : List (Int × Int)} (h : checkPairs ps = none) :
    ∀ p ∈ ps, ∃ x, Setting.ofId p.1 = some x ∧ x.admits p.2 = true := by
  unfold checkPairs at h
  rw [Option.or_eq_none_iff, Option.or_eq_none_iff, firstFailing_eq_none_iff, firstFailing_eq_none_iff] at h
  obtain ⟨⟨named, -⟩, admitted⟩ := h
  intro p hp
  have name := named p hp
  have value := admitted p hp
  cases hx : Setting.ofId p.1 with
  | none => simp [hx] at name
  | some x => exact ⟨x, rfl, by simpa [hx] using value⟩

theorem applyPairs_admits {ps : List (Int × Int)} {t : Settings} (h : ∀ x : Setting, x.admits (t.read x) = true)
    (hp : ∀ p ∈ ps, ∃ x, Setting.ofId p.1 = some x ∧ x.admits p.2 = true) :
    ∀ x : Setting, x.admits ((applyPairs t ps).read x) = true := by
  induction ps generalizing t with
  | nil => exact h
  | cons p ps ih =>
    obtain ⟨x, hx, value⟩ := hp p List.mem_cons_self
    unfold applyPairs
    rw [hx]
    refine ih (fun y => ?_) fun q hq => hp q (List.mem_cons_of_mem _ hq)
    rw [Settings.read_write]
    split
    · next e => rwa [← e]
    · exact h y

/-- R179 checks 5 to 11 on the settings as they would stand. -/
theorem checkSettings_eq_none_iff (s : State) (ps : List (Int × Int)) (t : Settings) :
    checkSettings s ps t = none ↔
      t.read .stageFloor < t.read .stageCeiling ∧ t.read .floodCadence ≤ t.read .quietCadence ∧
      t.read .spanStart < t.read .spanEnd ∧ t.read .traverseSlowDuty ≤ t.read .traverseFastDuty ∧
      insideSpan (t.read .spanStart) (t.read .spanEnd) s.verticals = true ∧
      limitHolds (t.read .shiftLimit) s.rating.bands = true ∧
      (s.cable.state.letsScalesChange = true ∨
        t.read .traverseCountsPerMetre = s.setting .traverseCountsPerMetre ∧
        t.read .hoistCountsPerMetre = s.setting .hoistCountsPerMetre ∧
        t.read .homeOffset = s.setting .homeOffset) := by
  unfold checkSettings
  constructor
  · intro h
    split_ifs at h
    refine ⟨by omega, by omega, by omega, by omega, by simpa, by simpa, ?_⟩
    next scales =>
      by_cases lets : s.cable.state.letsScalesChange = true
      · exact .inl lets
      · simp only [not_and_or, not_or, not_not] at scales
        exact .inr (scales.resolve_left lets)
  · rintro ⟨floor, cadence, span, duty, inside, limit, scales⟩
    rw [if_neg (by omega), if_neg (by omega), if_neg (by omega), if_neg (by omega), if_neg (by simp [inside]),
      if_neg (by simp [limit]), if_neg ?_]
    rintro ⟨still, changed⟩
    rcases scales with lets | ⟨traverse, hoist, home⟩
    · exact still lets
    · rcases changed with e | e | e
      exacts [e traverse, e hoist, e home]

theorem settingsLaw_of_checked {s : State} {ps : List (Int × Int)} (law : SettingsLaw s.settings)
    (hp : checkPairs ps = none) (hc : checkSettings s ps (applyPairs s.settings ps) = none) :
    SettingsLaw (applyPairs s.settings ps) := by
  obtain ⟨floor, cadence, span, duty, -⟩ := (checkSettings_eq_none_iff _ _ _).mp hc
  exact ⟨applyPairs_admits law.1 (admits_of_checkPairs hp), floor, cadence, span, duty⟩

theorem settingsLaw_defaults : SettingsLaw Settings.defaults := by
  unfold SettingsLaw
  simp only [Settings.read_defaults]
  exact ⟨fun x => by cases x <;> decide, by decide⟩

/-! ### The shift table (R64 to R66) -/

theorem ShiftTable.band_eq_get (t : ShiftTable) (k : Fin Config.shiftBands) : t.band k.val = t.get k := by
  rw [ShiftTable.band, Vector.getElem?_eq_getElem k.isLt]
  rfl

theorem ShiftTable.put_get (t : ShiftTable) (k : Nat) (b : Option Band)
    (i : Fin Config.shiftBands) : Vector.get (t.put k b) i = if i.val = k then b else t.get i := by
  have e : Vector.get (t.put k b) i = if k = i.val then b else t.get i := Vector.getElem_setIfInBounds i.isLt
  rw [e]
  exact if_congr eq_comm rfl rfl

/-- R66: the containing band is in use and covers the stage. -/
theorem containing_some {t : ShiftTable} {stage : Int} {k : Nat} {b : Band} (h : t.containing stage = some (k, b)) :
    ∃ i : Fin Config.shiftBands, k = i.val ∧ t.get i = some b ∧ b.lower ≤ stage ∧ stage < b.upper := by
  unfold ShiftTable.containing at h
  obtain ⟨i, hi, hb⟩ := (mem_inUse t _).mp (List.mem_of_find?_eq_some h)
  have covers := List.find?_some h
  simp only [Band.covers, Bool.and_eq_true, decide_eq_true_eq] at covers
  exact ⟨i, hi, hb, covers⟩

theorem containing_none {t : ShiftTable} {stage : Int} (h : t.containing stage = none) {i : Fin Config.shiftBands}
    {b : Band} (hb : t.get i = some b) : b.upper ≤ stage ∨ stage < b.lower := by
  unfold ShiftTable.containing at h
  have outside := List.find?_eq_none.mp h (i.val, b) ((mem_inUse t _).mpr ⟨i, rfl, hb⟩)
  simp only [Band.covers, Bool.and_eq_true, decide_eq_true_eq] at outside
  omega

/-! ### Edits that keep the bands lawful -/

theorem BandsLaw.lawful {limit : Int} {t : ShiftTable} (h : BandsLaw limit t) {i : Fin Config.shiftBands} {b : Band}
    (hb : t.get i = some b) : b.lawful limit := h.1 i b hb

/-- R65: a band put beside bands that it does not overlap. -/
theorem BandsLaw.put {limit : Int} {t : ShiftTable} (h : BandsLaw limit t) {k : Nat} {b : Band} (law : b.lawful limit)
    (apart : ∀ i c, i.val ≠ k → t.get i = some c → b.upper ≤ c.lower ∨ c.upper ≤ b.lower) :
    BandsLaw limit (t.put k (some b)) := by
  refine ⟨fun i c hc => ?_, fun i j c d hij hc hd => ?_⟩
  · rw [ShiftTable.put_get t k] at hc
    split at hc
    · cases hc
      exact law
    · exact h.1 i c hc
  · rw [ShiftTable.put_get t k] at hc hd
    split at hc
    · next hi =>
      cases hc
      rw [if_neg (fun hj => hij (Fin.ext (hi.trans hj.symm)))] at hd
      exact apart j d (fun hj => hij (Fin.ext (hi.trans hj.symm))) hd
    · next hi =>
      split at hd
      · cases hd
        exact (apart i c hi hc).symm
      · exact h.2 i j c d hij hc hd

/-- R65: bands that keep their ranges and have shifts within the limit. -/
theorem BandsLaw.of_moved {limit limit' : Int} {t t' : ShiftTable} (h : BandsLaw limit t)
    (moved : ∀ i c, t'.get i = some c → ∃ b, t.get i = some b ∧ c.lower = b.lower ∧ c.upper = b.upper ∧
      -limit' ≤ c.target ∧ c.target ≤ limit' ∧ -limit' ≤ c.applied ∧ c.applied ≤ limit') :
    BandsLaw limit' t' := by
  refine ⟨fun i c hc => ?_, fun i j c d hij hc hd => ?_⟩
  · obtain ⟨b, hb, lower, upper, shifts⟩ := moved i c hc
    exact ⟨by rw [lower, upper]; exact (h.lawful hb).1, shifts⟩
  · obtain ⟨b, hb, lower, upper, -⟩ := moved i c hc
    obtain ⟨b', hb', lower', upper', -⟩ := moved j d hd
    rw [lower, upper, lower', upper']
    exact h.2 i j b b' hij hb hb'

/-- R65: a band of a slot replaced by one of the same range. -/
theorem BandsLaw.put_moved {limit : Int} {t : ShiftTable} (h : BandsLaw limit t) {k : Fin Config.shiftBands} {b c : Band}
    (hb : t.get k = some b) (lower : c.lower = b.lower) (upper : c.upper = b.upper)
    (shifts : -limit ≤ c.target ∧ c.target ≤ limit ∧ -limit ≤ c.applied ∧ c.applied ≤ limit) :
    BandsLaw limit (t.put k.val (some c)) := by
  refine h.of_moved fun i d hd => ?_
  rw [ShiftTable.put_get t k.val] at hd
  split at hd
  · next hi =>
    cases hd
    exact ⟨b, by rwa [Fin.ext hi], lower, upper, shifts⟩
  · exact ⟨d, hd, rfl, rfl, (h.lawful hd).2⟩

theorem bandsLaw_empty (limit : Int) : BandsLaw limit ShiftTable.empty := by
  have empty : ∀ i, ShiftTable.empty.get i = none := fun i => Vector.getElem_replicate i.isLt
  exact ⟨fun i b h => (by rw [empty] at h; cases h), fun i j b c _ h _ => (by rw [empty] at h; cases h)⟩

/-- R75: a shift limit that every band in use meets. -/
theorem BandsLaw.of_limitHolds {limit limit' : Int} {t : ShiftTable} (h : BandsLaw limit t)
    (holds : limitHolds limit' t = true) : BandsLaw limit' t := by
  refine h.of_moved fun i b hb => ⟨b, hb, rfl, rfl, ?_⟩
  have shifts := List.all_eq_true.mp holds (i.val, b) ((mem_inUse t _).mpr ⟨i, rfl, hb⟩)
  simp only [Bool.and_eq_true, within_iff] at shifts
  exact ⟨shifts.1.1, shifts.1.2, shifts.2.1, shifts.2.2⟩

/-- R67, R68: a defined band lies clear of the others, with its target within the limit. -/
theorem BandsLaw.defined {s : State} {k : Nat} {lower upper target : Int}
    (h : BandsLaw (s.setting .shiftLimit) s.rating.bands) (hk : k < Config.shiftBands) (order : lower < upper)
    (within_limit : within (-s.setting .shiftLimit) (s.setting .shiftLimit) target = true)
    (clear : s.rating.bands.clash k lower upper = false) :
    BandsLaw (s.setting .shiftLimit)
      (s.rating.bands.put k (some (definedBand s (s.rating.bands.band k) lower upper target))) := by
  have limit := (within_iff _ _ _).mp within_limit
  have applied : -s.setting .shiftLimit ≤ ((s.rating.bands.band k).map fun b => b.applied).getD 0 ∧
      ((s.rating.bands.band k).map fun b => b.applied).getD 0 ≤ s.setting .shiftLimit := by
    cases hb : s.rating.bands.band k with
    | none => exact ⟨by dsimp; omega, by dsimp; omega⟩
    | some b => exact (h.lawful (((ShiftTable.band_eq_get _ ⟨k, hk⟩).symm.trans hb))).2.2.2
  refine h.put ⟨order, limit.1, limit.2, applied.1, applied.2⟩ fun i c hi hc => ?_
  have apart := List.any_eq_false.mp clear (i.val, c) ((mem_inUse _ _).mpr ⟨i, rfl, hc⟩)
  simp only [Band.overlaps, Bool.and_eq_true, bne_iff_ne, decide_eq_true_eq, not_and, definedBand] at apart ⊢
  have := apart hi
  omega

theorem BandsLaw.retired {s : State} {k : Nat} {b : Band} (h : BandsLaw (s.setting .shiftLimit) s.rating.bands)
    (hk : k < Config.shiftBands) (hb : s.rating.bands.band k = some b) :
    BandsLaw (s.setting .shiftLimit) (s.rating.bands.put k (some (b.retire s.clock))) := by
  have slot : s.rating.bands.get ⟨k, hk⟩ = some b := (ShiftTable.band_eq_get _ ⟨k, hk⟩).symm.trans hb
  obtain ⟨-, target, target', applied, applied'⟩ := h.lawful slot
  refine h.put_moved (k := ⟨k, hk⟩) slot ?_ ?_ ?_ <;> unfold Band.retire
  · split <;> rfl
  · split <;> rfl
  · split
    · exact ⟨target, target', applied, applied'⟩
    · exact ⟨by dsimp; omega, by dsimp; omega, applied, applied'⟩

/-! ### The ramp (R71 to R73) -/

theorem towards_within {limit step applied target : Int} (hs : 0 ≤ step) (ha : -limit ≤ applied ∧ applied ≤ limit)
    (ht : -limit ≤ target ∧ target ≤ limit) :
    -limit ≤ towards step applied target ∧ towards step applied target ≤ limit := by
  unfold towards
  split <;> omega

/-- R72, R73: a band that moves keeps its range and its target, and its applied shift moves toward the target. -/
theorem Band.ramp_moves {jump : Bool} {step : Int} {b c : Band} (h : b.ramp jump step = some c) :
    c.lower = b.lower ∧ c.upper = b.upper ∧ c.target = b.target ∧
      (c.applied = b.applied ∨ c.applied = b.target ∨ c.applied = towards step b.applied b.target) := by
  have reached : ∀ x, (if jump = true then b.target else towards step b.applied b.target) = x →
      x = b.target ∨ x = towards step b.applied b.target := by
    rintro x rfl
    exact (em (jump = true)).imp (fun e => if_pos e) fun e => if_neg e
  unfold Band.ramp at h
  split at h
  · cases h
    exact ⟨rfl, rfl, rfl, .inl rfl⟩
  · cases h
    exact ⟨rfl, rfl, rfl, .inr (reached _ rfl)⟩
  · dsimp only at h
    generalize moved : (if jump = true then b.target else towards step b.applied b.target) = x at h
    split at h
    · cases h
    · cases h
      exact ⟨rfl, rfl, rfl, .inr (reached _ moved)⟩

theorem rampExpiry_band (s : State) (i : Fin Config.shiftBands) :
    (rampExpiry s).rating.bands.get i =
      (s.rating.bands.get i).bind fun b => b.ramp s.stage.record.steadyAndTrusted (s.setting .rampStep) :=
  Vector.getElem_ofFn i.isLt

theorem BandsLaw.ramped {s : State} (h : BandsLaw (s.setting .shiftLimit) s.rating.bands)
    (hs : 0 ≤ s.setting .rampStep) : BandsLaw (s.setting .shiftLimit) (rampExpiry s).rating.bands := by
  refine h.of_moved fun i c hc => ?_
  rw [rampExpiry_band, Option.bind_eq_some_iff] at hc
  obtain ⟨b, hb, moves⟩ := hc
  obtain ⟨lower, upper, target, applied⟩ := Band.ramp_moves moves
  obtain ⟨-, ht, ht', ha, ha'⟩ := h.lawful hb
  refine ⟨b, hb, lower, upper, by rwa [target], by rwa [target], ?_⟩
  rcases applied with e | e | e <;> rw [e]
  · exact ⟨ha, ha'⟩
  · exact ⟨ht, ht'⟩
  · exact towards_within hs ⟨ha, ha'⟩ ⟨ht, ht'⟩

/-! ### An acceptance (R75 to R77) -/

theorem le_greatest {l : List Int} {most v : Int} (h : v = most ∨ v ∈ l) : v ≤ greatest most l := by
  induction l with
  | nil => rcases h with rfl | h; exacts [le_rfl, absurd h List.not_mem_nil]
  | cons a l ih =>
    unfold greatest
    rcases h with h | h
    · exact (ih (.inl h)).trans (le_max_right _ _)
    · rcases List.mem_cons.mp h with rfl | h
      · exact le_max_left _ _
      · exact (ih (.inr h)).trans (le_max_right _ _)

theorem least_le {l : List Int} {most v : Int} (h : v = most ∨ v ∈ l) : least most l ≤ v := by
  induction l with
  | nil => rcases h with rfl | h; exacts [le_rfl, absurd h List.not_mem_nil]
  | cons a l ih =>
    unfold least
    rcases h with h | h
    · exact (min_le_right _ _).trans (ih (.inl h))
    · rcases List.mem_cons.mp h with rfl | h
      · exact min_le_left _ _
      · exact (min_le_right _ _).trans (ih (.inr h))

/-- R77: the range of a new band is clipped at every band beside it. -/
theorem clipped_apart {t : ShiftTable} {mean halfWidth : Int} (outside : t.containing mean = none)
    {i : Fin Config.shiftBands} {b : Band} (hb : t.get i = some b) :
    b.upper ≤ clippedLower (t.inUse.map fun p => p.2) mean halfWidth ∨
      clippedUpper (t.inUse.map fun p => p.2) mean halfWidth ≤ b.lower := by
  have used : b ∈ t.inUse.map fun p => p.2 := List.mem_map.mpr ⟨(i.val, b), (mem_inUse t _).mpr ⟨i, rfl, hb⟩, rfl⟩
  rcases containing_none outside hb with below | above
  · exact .inl (le_greatest (.inr (List.mem_map.mpr ⟨b, List.mem_filter.mpr ⟨used, decide_eq_true below⟩, rfl⟩)))
  · exact .inr (least_le (.inr (List.mem_map.mpr ⟨b, List.mem_filter.mpr ⟨used, decide_eq_true above⟩, rfl⟩)))

/-- R76, R77: an acceptance that is taken retargets the containing band, or places a new one in the first Empty slot. -/
theorem acceptShift_ok {s : State} {id : BitVec 16} {mean proposal : Int} {q : Placement}
    (h : acceptShift s id mean proposal = .ok q) :
    (-s.setting .shiftLimit ≤ proposal ∧ proposal ≤ s.setting .shiftLimit) ∧
    ((∃ k b, s.rating.bands.containing mean = some (k, b) ∧
        q.state = s.setBands (s.rating.bands.put k (some (b.retarget s.clock id proposal)))) ∨
      ∃ k b, s.rating.bands.containing mean = none ∧ k < Config.shiftBands ∧
        b.lower = clippedLower (s.rating.bands.inUse.map fun p => p.2) mean (s.setting .shiftHalfWidth) ∧
        b.upper = clippedUpper (s.rating.bands.inUse.map fun p => p.2) mean (s.setting .shiftHalfWidth) ∧
        b.target = proposal ∧ b.applied = 0 ∧ b.lower < b.upper ∧
        q.state = s.setBands (s.rating.bands.put k (some b))) := by
  unfold acceptShift at h
  split at h
  · cases h
  · next limit =>
    refine ⟨(within_iff _ _ _).mp (not_not.mp limit), ?_⟩
    split at h
    · next k b hk =>
      cases h
      exact .inl ⟨k, b, hk, rfl⟩
    · next outside =>
      dsimp only at h
      split at h
      · cases h
      · next k _ found =>
        split at h
        · cases h
        · next wide =>
          cases h
          have slot := List.mem_of_find?_eq_some found
          unfold ShiftTable.slots at slot
          obtain ⟨i, -, hi⟩ := List.mem_map.mp slot
          refine .inr ⟨k, _, outside, ?_, rfl, rfl, rfl, rfl, ?_, rfl⟩
          · exact lt_of_eq_of_lt (congrArg Prod.fst hi).symm i.isLt
          · unfold Config.bandWidthMin at wide
            dsimp only
            omega

theorem BandsLaw.accepted {s : State} {id : BitVec 16} {mean proposal : Int} {q : Placement}
    (law : BandsLaw (s.setting .shiftLimit) s.rating.bands) (h : acceptShift s id mean proposal = .ok q) :
    ∃ t, q.state = s.setBands t ∧ BandsLaw (s.setting .shiftLimit) t := by
  obtain ⟨limit, ⟨k, b, inside, e⟩ | ⟨k, b, outside, hk, lower, upper, target, applied, order, e⟩⟩ := acceptShift_ok h
  · refine ⟨_, e, ?_⟩
    obtain ⟨i, rfl, hb, -⟩ := containing_some inside
    obtain ⟨-, -, -, ha, ha'⟩ := law.lawful hb
    exact law.put_moved hb rfl rfl ⟨limit.1, limit.2, ha, ha'⟩
  · refine ⟨_, e, law.put ⟨order, by omega, by omega, by omega, by omega⟩ fun i c _ hc => ?_⟩
    rw [lower, upper]
    exact (clipped_apart outside hc).symm

/-! ### The settings and the bands together -/

theorem takeReset_settings (pin : ResetPin) (s : State) : (takeReset pin s).settings = Settings.defaults := by
  cases pin <;> rfl

theorem rampStep_nonneg {t : Settings} (h : SettingsLaw t) : 0 ≤ t.read .rampStep := by
  have low : (1 : Int) ≤ t.read .rampStep := ((Setting.admits_iff _ _).mp (h.1 .rampStep)).1
  omega

theorem settingsLaws_congr {s t : State}
    (h : SettingsLaw s.settings ∧ BandsLaw (s.setting .shiftLimit) s.rating.bands)
    (hs : t.settings = s.settings) (hr : t.rating.bands = s.rating.bands) :
    SettingsLaw t.settings ∧ BandsLaw (t.setting .shiftLimit) t.rating.bands := by
  unfold State.setting
  rw [hs, hr]
  exact h

theorem settingsLaws_kept : KeptByRecords fun s =>
    SettingsLaw s.settings ∧ BandsLaw (s.setting .shiftLimit) s.rating.bands where
  reads s t hs _ hr _ _ _ h := settingsLaws_congr h hs (congrArg _ hr)
  reset pin s _ := by
    rw [takeReset_settings, takeReset_rating]
    exact ⟨settingsLaw_defaults, bandsLaw_empty _⟩
  cursor _ _ _ h := h
  settings s ps hp hc h := by
    obtain ⟨-, -, -, -, -, limit, -⟩ := (checkSettings_eq_none_iff _ _ _).mp hc
    exact ⟨settingsLaw_of_checked h.1 hp hc, h.2.of_limitHolds limit⟩
  pendingSetup _ _ _ h := h
  interval s h := settingsLaws_congr h (setStage_settings s _) (by rw [setStage_rating])
  draft _ _ _ h := h
  adoptionRecord _ _ h := h
  adopted _ _ _ _ h := h
  bandsCleared _ h := ⟨h.1, bandsLaw_empty _⟩
  band _ _ _ _ _ hk order limit clear h := ⟨h.1, h.2.defined hk order limit clear⟩
  bandRetired _ _ _ hk hb h := ⟨h.1, h.2.retired hk hb⟩
  acceptance s _ _ _ _ hq h := by
    obtain ⟨t, e, law⟩ := h.2.accepted hq
    rw [e]
    exact ⟨h.1, law⟩
  ramp s h := ⟨h.1, h.2.ramped (rampStep_nonneg h.1)⟩
  verticals _ _ _ h := h
  ruleDefined _ _ _ _ _ _ h := h
  formed _ _ h := h
  phase s h := by
    obtain ⟨p, n, e⟩ := patternPhaseEnd_eq s
    rw [e]
    exact h
  second _ h := settingsLaws_congr h rfl rfl

end Sys2Proof.Machine

open Sys2Proof.Machine

/-- Settles O11: a settings write is checked against the ranges, the cross-checks and the bands, and every edit of the
shift table keeps its shifts within the limit and its ranges apart. -/
theorem stepKeepsSettingsAndBands : Obligations.StepKeepsSettingsAndBands := fun s t settings bands step =>
  step_keeps settingsLaws_kept.kept s t ⟨settings, bands⟩ step

end

section
/-! The laws of the channels (R1, R7, R9, R10), of the vote and the stage record (R23, R26, R36, R40), and of the answer
slot (R172 to R175), which every step keeps. -/

namespace Sys2Proof.Machine

/-! ### A channel record after each edit -/

theorem judge_cases (s : State) (v : Int) : s.judge v = .valid ∨ s.judge v = .outOfRange := by
  unfold State.judge
  split
  · exact .inl rfl
  · exact .inr rfl

theorem showsReading_iff (c : Channel) : c.showsReading = true ↔ c.condition = .valid ∨ c.condition = .outOfRange := by
  simp [Channel.showsReading]

/-- A lawful record in which what the law of a channel reads is as it was. -/
theorem Channel.lawful_congr {c d : Channel} (h : c.lawful) (hr : d.reading = c.reading)
    (hc : d.condition = c.condition) (hk : d.kind = c.kind) (hg : d.gate.isSome = c.gate.isSome)
    (ht : d.settlingTimer.isSome = c.settlingTimer.isSome) (hl : d.lastGate = c.lastGate) : d.lawful := by
  unfold Channel.lawful
  rw [hr, hc, hk, hg, ht, hl]
  exact h

/-- R11: a reading taken without a settling timer is Valid or OutOfRange by the limits. -/
theorem takeReading_lawful {c : Channel} (s : State) (v : Int) (kind : c.kind ≠ .off)
    (gate : c.gate.isSome = true ↔ c.kind = .frequency) (timer : c.settlingTimer = none)
    (saturated : c.kind = .frequency → c.lastGate ≠ some Config.gatePulsesMax) : (c.takeReading s v).lawful := by
  unfold Channel.takeReading
  refine ⟨⟨fun _ => judge_cases s v, fun _ => rfl⟩, ⟨fun k => absurd k kind, fun k => ?_⟩, gate,
    fun k => (by rw [timer] at k; cases k), fun _ k => saturated k⟩
  have judged : s.judge v = .off := k
  rcases judge_cases s v with e | e <;> rw [e] at judged <;> cases judged

theorem Channel.lawful.timer_stopped {c : Channel} (h : c.lawful) (hc : c.condition ≠ .settling) :
    c.settlingTimer = none := by
  obtain ⟨-, -, -, timer, -⟩ := h
  cases ht : c.settlingTimer with
  | none => rfl
  | some n => exact absurd (timer (by rw [ht]; rfl)).2 hc

/-- R3, R11: an encoder after its count changed. -/
theorem followCount_lawful {c : Channel} (s : State) (h : c.lawful) (kind : c.kind = .encoder) :
    (c.followCount s).lawful := by
  unfold Channel.followCount
  split
  · next shows =>
    have shown := (showsReading_iff c).mp shows
    refine takeReading_lawful s _ (by simp [kind]) h.2.2.1 (h.timer_stopped ?_) fun k => by simp [kind] at k
    rcases shown with e | e <;> simp [e]
  · exact h

theorem configuredOff_lawful (s : State) (c : Channel) : (c.configuredOff s).lawful := by
  simp [Channel.lawful, Channel.configuredOff, Channel.afresh]

theorem configuredEncoder_lawful (s : State) (c : Channel) (scale offset : Int) (mark : Option Mark) :
    (c.configuredEncoder s scale offset mark).lawful := by
  simp [Channel.lawful, Channel.configuredEncoder, Channel.afresh]

theorem configuredFrequency_lawful (s : State) (c : Channel) (scale offset : Int) :
    (c.configuredFrequency s scale offset).lawful := by
  simp [Channel.lawful, Channel.configuredFrequency, Channel.afresh]

/-- R16: a Valid channel whose offset is corrected settles again. -/
theorem corrected_lawful {c : Channel} (s : State) (offset : Int) (h : c.lawful) (valid : c.condition = .valid) :
    (c.corrected s offset).lawful := by
  obtain ⟨-, off, gate, -, -⟩ := h
  have kind : c.kind ≠ .off := fun k => by simp [off.mp k] at valid
  refine ⟨by simp [Channel.corrected], by simp [Channel.corrected, kind], gate, fun k => ⟨?_, rfl⟩, by
    simp [Channel.corrected]⟩
  by_contra other
  have other : c.kind ≠ .encoder := other
  simp [Channel.corrected, other] at k

/-- R8, R9: a gate's value is no Valid reading when the gate is saturated. -/
theorem takeGate_lawful {c : Channel} (s : State) (total : Nat) (kind : c.kind = .frequency)
    (gate : c.gate.isSome = true) (timer : c.settlingTimer = none) (last : c.lastGate = some total) :
    (c.takeGate s total).lawful := by
  have gate_iff : c.gate.isSome = true ↔ c.kind = .frequency := ⟨fun _ => kind, fun _ => gate⟩
  unfold Channel.takeGate
  dsimp only
  split
  · simp [Channel.lawful, Channel.takeReading, kind, timer, gate_iff]
  · next unsaturated =>
    refine takeReading_lawful s _ (by simp [kind]) gate_iff timer fun _ k => unsaturated ?_
    rw [last] at k
    exact Option.some.inj k

/-- R8: the table of a gate completion keeps a frequency channel lawful, once the new gate total stands. -/
theorem actOnGate_lawful {c : Channel} (s : State) (total : Nat) (kind : c.kind = .frequency)
    (gate : c.gate.isSome = true) (timer : c.settlingTimer = none) (last : c.lastGate = some total)
    (reading : c.reading.isSome = true ↔ c.condition = .valid ∨ c.condition = .outOfRange)
    (off : c.kind = .off ↔ c.condition = .off) : (c.actOnGate s total).lawful := by
  have running : c.condition ≠ .off := fun k => by simp [off.mpr k] at kind
  have silenced : ∀ d : Channel, d.kind = .frequency → d.gate.isSome = true → d.settlingTimer = none →
      d.reading.isSome = false → d.condition = .settling ∨ d.condition = .silent → d.lawful := by
    intro d hk hg ht hr hc
    rcases hc with e | e <;> simp [Channel.lawful, hk, hg, ht, hr, e]
  have absent : c.condition ≠ .valid → c.condition ≠ .outOfRange → c.reading.isSome = false := fun hv ho =>
    Bool.eq_false_iff.mpr fun k => (reading.mp k).elim hv ho
  unfold Channel.actOnGate
  cases hc : c.condition with
  | off => exact absurd hc running
  | settling =>
    have none := absent (by simp [hc]) (by simp [hc])
    dsimp only
    split
    · exact silenced _ kind gate timer none (.inr rfl)
    · split
      · exact silenced _ kind gate timer none (.inl rfl)
      · exact takeGate_lawful s total kind gate timer last
  | silent =>
    have none := absent (by simp [hc]) (by simp [hc])
    dsimp only
    split
    · exact silenced _ kind gate timer none (.inr hc)
    · exact silenced _ kind gate timer none (.inl rfl)
  | valid =>
    dsimp only
    split
    · exact silenced _ kind gate timer rfl (.inr rfl)
    · exact takeGate_lawful s total kind gate timer last
  | outOfRange =>
    dsimp only
    split
    · exact silenced _ kind gate timer rfl (.inr rfl)
    · exact takeGate_lawful s total kind gate timer last

/-- R11: a channel tested against new limits; a saturated reading stays OutOfRange. -/
theorem retest_lawful {c : Channel} (s : State) (h : c.lawful) : (c.retest s).lawful := by
  unfold Channel.retest
  split
  · next v hv =>
    split
    · next shown =>
      simp only [Bool.and_eq_true, Bool.not_eq_true', Channel.saturated] at shown
      obtain ⟨shows, unsaturated⟩ := shown
      have known := (showsReading_iff c).mp shows
      obtain ⟨reading, off, gate, timer, -⟩ := h
      have kind : c.kind ≠ .off := fun k => by
        rcases known with e | e <;> simp [off.mp k] at e
      have judged : s.judge v ≠ .off := by rcases judge_cases s v with e | e <;> simp [e]
      have stopped : c.settlingTimer.isSome = true → False := fun k => by
        rcases known with e | e <;> simp [(timer k).2] at e
      exact ⟨⟨fun _ => judge_cases s v, fun _ => by simp [hv]⟩, by simp [kind, judged], gate,
        fun k => (stopped k).elim, fun _ k l => by simp_all⟩
    · exact h
  · exact h

theorem second_lawful {c : Channel} (h : c.lawful) : c.second.lawful :=
  Channel.lawful_congr h rfl rfl rfl Option.isSome_map Option.isSome_map rfl

/-! ### The channels of a state -/

theorem channelsLaw_congr {s t : State} (h : ChannelsLaw s) (e : t.channels = s.channels) : ChannelsLaw t := by
  unfold ChannelsLaw State.channel
  rw [e]
  exact h

theorem ChannelsLaw.of_frame {s t : State} (f : CableFrame s t) (h : ChannelsLaw s) : ChannelsLaw t :=
  channelsLaw_congr h f.channels

theorem ChannelsLaw.put {s : State} {i : ChannelNumber} {c : Channel} (h : ChannelsLaw s) (hc : c.lawful) :
    ChannelsLaw (s.putChannel i c) := by
  refine ChannelsLaw.of_frame (putChannel_frame s i c) fun j => ?_
  have e : (s.setChannels (s.channels.set i.val c i.isLt)).channel j = if i.val = j.val then c else s.channel j :=
    Vector.getElem_set i.isLt j.isLt
  rw [e]
  split
  · exact hc
  · exact h j

theorem quadratureChange_channelsLaw (i : ChannelNumber) (e : QuadratureEdge) (s : State) (h : ChannelsLaw s) :
    ChannelsLaw (quadratureChange i e s) := by
  unfold quadratureChange
  dsimp only
  split
  · next encoder => exact h.put (followCount_lawful s (Channel.lawful_congr (h i) rfl rfl rfl rfl rfl rfl) encoder.1)
  · exact h

theorem markEdge_channelsLaw (i : ChannelNumber) (e : Edge) (s : State) (h : ChannelsLaw s) :
    ChannelsLaw (markEdge i e s) := by
  have same : ∀ d : Channel, d.reading = (s.channel i).reading → d.condition = (s.channel i).condition →
      d.kind = (s.channel i).kind → d.gate = (s.channel i).gate → d.settlingTimer = (s.channel i).settlingTimer →
      d.lastGate = (s.channel i).lastGate → d.lawful := fun d hr hc hk hg ht hl =>
    Channel.lawful_congr (h i) hr hc hk (by rw [hg]) (by rw [ht]) hl
  unfold markEdge
  dsimp only
  split
  · next kind _ =>
    split
    · exact h.put (followCount_lawful s (same _ rfl rfl rfl rfl rfl rfl) kind)
    · exact h.put (same _ rfl rfl rfl rfl rfl rfl)
  · exact h.put (same _ rfl rfl rfl rfl rfl rfl)

theorem frequencyPulse_channelsLaw (i : ChannelNumber) (s : State) (h : ChannelsLaw s) :
    ChannelsLaw (frequencyPulse i s) := by
  unfold frequencyPulse
  dsimp only
  split
  · next gate => exact h.put (Channel.lawful_congr (h i) rfl rfl rfl (by rw [gate]; rfl) rfl rfl)
  · exact h

theorem gateCompletion_channelsLaw (i : ChannelNumber) (s : State) (h : ChannelsLaw s) :
    ChannelsLaw (gateCompletion i s) := by
  unfold gateCompletion
  dsimp only
  split
  · next kind _ =>
    obtain ⟨reading, off, -, timer, -⟩ := h i
    have stopped : (s.channel i).settlingTimer = none := by
      cases ht : (s.channel i).settlingTimer with
      | none => rfl
      | some n =>
        have encoder := (timer (by rw [ht]; rfl)).1
        rw [kind] at encoder
        cases encoder
    exact h.put (actOnGate_lawful s _ kind rfl stopped rfl reading off)
  · exact h

theorem settlingTimerExpiry_channelsLaw (i : ChannelNumber) (s : State) (h : ChannelsLaw s) :
    ChannelsLaw (settlingTimerExpiry i s) := by
  unfold settlingTimerExpiry
  dsimp only
  split
  · next n ht =>
    obtain ⟨-, -, gate, timer, -⟩ := h i
    have encoder := (timer (by rw [ht]; rfl)).1
    exact h.put (takeReading_lawful s _ (by simp [encoder]) gate rfl fun k => by simp [encoder] at k)
  · exact h

theorem retestChannels_channelsLaw (s : State) (h : ChannelsLaw s) : ChannelsLaw (retestChannels s) := by
  refine ChannelsLaw.of_frame (raiseIf_frame _ _ .channelChanged (by decide)) fun i => ?_
  have e : (s.setChannels (Vector.ofFn fun i => (s.channel i).retest s)).channel i = (s.channel i).retest s :=
    Vector.getElem_ofFn i.isLt
  rw [e]
  exact retest_lawful s (h i)

theorem applySettings_channelsLaw (t : Settings) (s : State) (h : ChannelsLaw s) : ChannelsLaw (applySettings t s) := by
  refine ChannelsLaw.of_frame (retestCable_frame _ _) (channelsLaw_congr ?_ (setFreeReads_channels _ _))
  exact whenChanged_keeps retestChannels_channelsLaw _ _ _ _ (channelsLaw_congr h rfl)

theorem clockSecond_channelsLaw (s : State) (h : ChannelsLaw s) : ChannelsLaw (clockSecond s) := fun i => by
  have e : (clockSecond s).channel i = (s.channel i).second := Vector.getElem_ofFn i.isLt
  rw [e]
  exact second_lawful (h i)

theorem takeReset_channelsLaw (pin : ResetPin) (s : State) : ChannelsLaw (takeReset pin s) := fun i => by
  have e : ∃ level, (takeReset pin s).channel i = Channel.reset level := by
    cases pin <;> exact ⟨_, Vector.getElem_ofFn i.isLt⟩
  obtain ⟨level, e⟩ := e
  rw [e]
  simp [Channel.lawful, Channel.reset]

theorem SpreadFrame.channels {s t : State} (f : SpreadFrame s t) : t.channels = s.channels := by
  obtain ⟨w, n, f⟩ := f
  exact f.channels

theorem channelsLaw_kept : Kept ChannelsLaw where
  frame _ _ f h := h.of_frame f
  pending _ _ h := channelsLaw_congr h rfl
  slot _ _ h := channelsLaw_congr h rfl
  undriven _ h := channelsLaw_congr h rfl
  ignored _ h := channelsLaw_congr h rfl
  overrun _ h := channelsLaw_congr h rfl
  fetch n s h := by
    unfold fetchFrame
    dsimp only
    split
    · exact channelsLaw_congr h rfl
    · split <;> exact channelsLaw_congr h rfl
  reset pin s _ := takeReset_channelsLaw pin s
  attention _ _ h := channelsLaw_congr h rfl
  mask _ _ _ _ h := channelsLaw_congr h rfl
  cursor _ _ _ h := channelsLaw_congr h rfl
  clock _ _ h := channelsLaw_congr h rfl
  settings s _ ps _ _ _ h := applySettings_channelsLaw _ s h
  configured s i c hc h := by
    rcases hc with rfl | ⟨scale, offset, mark, rfl⟩ | ⟨scale, offset, rfl⟩
    exacts [h.put (configuredOff_lawful s _), h.put (configuredEncoder_lawful s _ _ _ _),
      h.put (configuredFrequency_lawful s _ _ _)]
  corrected s i offset valid h := h.put (corrected_lawful s offset (h i) valid)
  pendingSetup _ _ _ h := channelsLaw_congr h rfl
  draft s d _ h := by
    obtain ⟨r, f⟩ := draftChange_frame d s
    exact ChannelsLaw.of_frame f (channelsLaw_congr h rfl)
  adoptionRequest _ _ h := channelsLaw_congr h rfl
  band _ _ _ _ _ _ _ _ _ h := channelsLaw_congr h rfl
  bandRetired _ _ _ _ _ h := channelsLaw_congr h rfl
  verticals _ _ _ _ h := channelsLaw_congr h rfl
  meter _ _ h := channelsLaw_congr h rfl
  newRun _ _ _ _ _ h := channelsLaw_congr h rfl
  acceptance s _ _ _ _ hq h := by
    obtain ⟨t, e⟩ := acceptShift_state hq
    rw [e]
    exact channelsLaw_congr h rfl
  ruleDefined _ _ _ _ _ _ h := channelsLaw_congr h rfl
  ruleOut s k r after h := channelsLaw_congr h (takeRuleOut_spread k r after s).channels
  ruleAcknowledged s k r h := channelsLaw_congr h ((setRules_spread s _).trans (formEffects_spread _)).channels
  quadrature := quadratureChange_channelsLaw
  mark := markEdge_channelsLaw
  pulse := frequencyPulse_channelsLaw
  gate := gateCompletion_channelsLaw
  settling := settlingTimerExpiry_channelsLaw
  interval s h := channelsLaw_congr (channelsLaw_congr h (setStage_channels s _)) (stageIntervalExpiry_spread s).channels
  ramp _ h := channelsLaw_congr h rfl
  adoption s h := by
    obtain ⟨r, f⟩ := adoptionCompletion_frame s
    exact ChannelsLaw.of_frame f (channelsLaw_congr h rfl)
  second := clockSecond_channelsLaw
  boundary s h := ChannelsLaw.of_frame (drivePeriodBoundary_frame s) (channelsLaw_congr h rfl)
  contact c v s h := ChannelsLaw.of_frame (contactChange_frame c v s) (channelsLaw_congr h rfl)
  phase s h := by
    obtain ⟨p, n, e⟩ := patternPhaseEnd_eq s
    rw [e]
    exact channelsLaw_congr h rfl

/-! ### The vote records (R23, R26) -/

/-- R26: the part of the vote law that a record has by itself. -/
structure VoteRecord.Lawful (v : VoteRecord) (role : Role) : Prop where
  standing : v.standing = .excluded ↔ role = .neither
  blank : v.standing = .excluded → v.disagree = 0 ∧ v.agree = 0 ∧ v.watch = none
  disagree : v.disagree ≤ 15
  agree : v.agree ≤ 15
  watch : ∀ w, v.watch = some w → w.settlements ≤ 255

theorem voteLaw_iff (s : State) :
    VoteLaw s ↔ s.stage.setup.checks.getLsbD s.stage.setup.primary.val = false ∧
      (∀ u, s.stage.pendingSetup = some u → u.checks.getLsbD u.primary.val = false) ∧
      ∀ i, (s.vote i).Lawful (s.stage.setup.role i) := by
  unfold VoteLaw
  exact and_congr Iff.rfl (and_congr Iff.rfl (forall_congr' fun i =>
    ⟨fun ⟨a, b, c, d, e⟩ => ⟨a, b, c, d, e⟩, fun ⟨a, b, c, d, e⟩ => ⟨a, b, c, d, e⟩⟩))

theorem fresh_lawful (role : Role) : (VoteRecord.fresh role).Lawful role := by
  cases role <;> constructor <;> simp [VoteRecord.fresh]

/-- A record of a channel in the vote: not Excluded, with its counts and its watch within their bounds. -/
def VoteRecord.InVote (v : VoteRecord) : Prop :=
  v.standing ≠ .excluded ∧ v.disagree ≤ 15 ∧ v.agree ≤ 15 ∧ ∀ w, v.watch = some w → w.settlements ≤ 255

theorem VoteRecord.Lawful.inVote {v : VoteRecord} {role : Role} (h : v.Lawful role) (hv : v.standing ≠ .excluded) :
    v.InVote := ⟨hv, h.disagree, h.agree, h.watch⟩

theorem VoteRecord.InVote.lawful {v : VoteRecord} {role : Role} (h : v.InVote) (hr : role ≠ .neither) :
    v.Lawful role :=
  ⟨⟨fun e => absurd e h.1, fun e => absurd e hr⟩, fun e => absurd e h.1, h.2.1, h.2.2.1, h.2.2.2⟩

theorem VoteRecord.InVote.stand {v : VoteRecord} (h : v.InVote) {x : Standing} (hx : x ≠ .excluded) :
    (v.stand x).InVote := ⟨hx, Nat.zero_le _, Nat.zero_le _, h.2.2.2⟩

theorem countUp_le (most n : Nat) : countUp most n ≤ most := min_le_left _ _

theorem VoteRecord.InVote.compare {v : VoteRecord} (h : v.InVote) (b : Bool) : (v.compare b).InVote := by
  unfold VoteRecord.compare
  split
  · exact ⟨h.1, Nat.zero_le _, countUp_le _ _, h.2.2.2⟩
  · exact ⟨h.1, countUp_le _ _, Nat.zero_le _, h.2.2.2⟩

theorem VoteRecord.InVote.testPrimary {v : VoteRecord} (h : v.InVote) (b : Bool) : (v.testPrimary b).InVote := by
  refine ⟨h.1, ?_, Nat.zero_le _, h.2.2.2⟩
  unfold VoteRecord.testPrimary
  dsimp only
  split
  · exact countUp_le _ _
  · exact Nat.zero_le _

theorem VoteRecord.InVote.judge {v : VoteRecord} (h : v.InVote) (p : Int) : (v.judge p).InVote := by
  unfold VoteRecord.judge
  split
  · split
    · exact h.stand (by decide)
    · exact h
  · split
    · exact h.stand (by decide)
    · exact h
  · exact h
  · exact h

theorem server_candidate {s : State} {i : ChannelNumber} (h : s.server = some i) : (s.vote i).standing = .candidate := by
  have serves : s.mayServe i = true := by
    unfold State.server at h
    split at h
    · next hp =>
      cases h
      exact hp
    · exact List.find?_some h
  exact ((mayServe_iff s i).mp serves).2

theorem agreeingSet_candidate {s : State} {i : ChannelNumber} (h : s.agreeingSet.contains i = true) :
    (s.vote i).standing = .candidate := by
  unfold State.agreeingSet at h
  exact ((mayServe_iff s i).mp (List.mem_filter.mp (List.contains_iff_mem.mp h)).2).2

theorem comparable_inVote {s : State} {i : ChannelNumber} (h : s.comparable i = true) :
    (s.vote i).standing ≠ .excluded := by
  intro e
  unfold State.comparable at h
  rw [e] at h
  cases hr : s.stage.setup.role i <;> simp [hr] at h

/-- R28: an Excluded channel is not compared. -/
theorem compared_excluded {s : State} {i : ChannelNumber} (h : (s.vote i).standing = .excluded) :
    s.compared i = s.vote i := by
  unfold State.compared
  dsimp only
  split
  · rfl
  · next reference hs =>
    split
    · next e =>
      rw [e, server_candidate hs] at h
      cases h
    · split
      · next member =>
        rw [agreeingSet_candidate (Bool.and_eq_true _ _ ▸ member).2] at h
        cases h
      · split
        · next comparable => exact absurd h (comparable_inVote comparable)
        · rfl

theorem compared_inVote {s : State} {i : ChannelNumber} (h : (s.vote i).InVote) : (s.compared i).InVote := by
  unfold State.compared
  dsimp only
  split
  · exact h
  · split
    · split
      · exact (h.testPrimary _).judge _
      · exact h
    · split
      · exact ⟨h.1, Nat.zero_le _, h.2.2.1, h.2.2.2⟩
      · split
        · exact (h.compare _).judge _
        · exact h

/-- R26, R32: a watch that starts, starts again or advances stays within its bound. -/
theorem nextWatch_le {v : VoteRecord} {count : Word} {last : Option Int} :
    (v.nextWatch count last).settlements ≤ 255 := by
  unfold VoteRecord.nextWatch
  split
  · exact Nat.zero_le _
  · unfold StuckWatch.advance
    split
    · exact Nat.zero_le _
    · exact countUp_le _ _

theorem VoteRecord.InVote.withWatch {v : VoteRecord} (h : v.InVote) {w : Option StuckWatch}
    (hw : ∀ x, w = some x → x.settlements ≤ 255) : { v with watch := w }.InVote := ⟨h.1, h.2.1, h.2.2.1, hw⟩

theorem whileStuck_inVote {v : VoteRecord} (h : v.InVote) (count : Word) (last : Option Int) :
    (v.whileStuck count last).InVote := by
  unfold VoteRecord.whileStuck
  split
  · split
    · exact (h.stand (by decide)).withWatch fun x hx => by cases hx; exact Nat.zero_le _
    · exact h.withWatch fun x hx => by cases hx; exact countUp_le _ _
  · exact (h.stand (by decide)).withWatch fun x hx => by cases hx; exact Nat.zero_le _

/-- R27, R32, R33: the watch step leaves a channel of the vote in the vote. -/
theorem watchStep_inVote {kind : ChannelKind} {count : Word} {last : Option Int} {limit band : Int}
    {starting compared : VoteRecord} (hc : compared.InVote) :
    (VoteRecord.watchStep kind count last limit band starting compared).InVote := by
  have unwatched : ∀ v : VoteRecord, v.InVote → { v with watch := none }.InVote := fun v hv =>
    hv.withWatch fun x hx => by cases hx
  have watched : ∀ v : VoteRecord, v.InVote → { v with watch := some (starting.nextWatch count last) }.InVote :=
    fun v hv => hv.withWatch fun x hx => by cases hx; exact nextWatch_le
  unfold VoteRecord.watchStep
  split
  · exact hc
  · exact whileStuck_inVote hc _ _
  · dsimp only
    split
    · exact watched _ (hc.stand (by decide))
    · exact watched _ hc
  · dsimp only
    split
    · exact watched _ (hc.stand (by decide))
    · exact watched _ hc
  · exact unwatched _ (hc.stand (by decide))
  · exact unwatched _ hc
  · exact unwatched _ hc

/-- R25 to R33: a settlement leaves each channel's record lawful for its role. -/
theorem settledVote_lawful {s : State} {i : ChannelNumber} {role : Role} (h : (s.vote i).Lawful role) :
    (s.settledVote i).Lawful role := by
  unfold State.settledVote
  by_cases excluded : (s.vote i).standing = .excluded
  · have kept : ∀ kind count last limit band, VoteRecord.watchStep kind count last limit band (s.vote i) (s.compared i) =
        s.vote i := fun kind count last limit band => by
      unfold VoteRecord.watchStep
      rw [excluded, compared_excluded excluded]
    rw [kept]
    exact h
  · exact (watchStep_inVote (compared_inVote (h.inVote excluded))).lawful fun e => excluded (h.standing.mpr e)

theorem replaceSetup_lawful {s : State} (h : VoteLaw s) (i : ChannelNumber) :
    ((replaceSetup s).vote i).Lawful ((s.stage.pendingSetup.getD s.stage.setup).role i) := by
  rw [replaceSetup_vote]
  split
  · next same =>
    rw [same]
    exact ((voteLaw_iff s).mp h).2.2 i
  · exact fresh_lawful _

theorem stageIntervalExpiry_pendingSetup (s : State) : (stageIntervalExpiry s).stage.pendingSetup = none := by
  rw [stageIntervalExpiry_stage_eq]
  exact congrArg StageBlock.pendingSetup (takeVote_stage _)

theorem stageIntervalExpiry_inForce (s : State) :
    (stageIntervalExpiry s).stage.setup = s.stage.pendingSetup.getD s.stage.setup := by
  rw [stageIntervalExpiry_setup]
  exact congrArg StageBlock.setup (takeVote_stage _)

theorem voteLaw_congr {s t : State} (h : VoteLaw s) (hs : t.stage.setup = s.stage.setup)
    (hp : t.stage.pendingSetup = s.stage.pendingSetup) (hv : t.stage.votes = s.stage.votes) : VoteLaw t := by
  unfold VoteLaw State.vote
  rw [hs, hp, hv]
  exact h

/-- R25 to R33: the end of an interval leaves the vote lawful under the setup that it brings into force. -/
theorem interval_voteLaw (s : State) (h : VoteLaw s) : VoteLaw (s.setStage (stageIntervalExpiry s).stage) := by
  obtain ⟨setup, pending, -⟩ := (voteLaw_iff s).mp h
  have begun : VoteLaw (s.setStage { s.stage with interval := nextInterval s }) := voteLaw_congr h rfl rfl rfl
  have settled : ∀ i, (s.setStage (stageIntervalExpiry s).stage).vote i =
      (replaceSetup (s.setStage { s.stage with interval := nextInterval s })).settledVote i := fun i =>
    (congrArg (fun b : StageBlock => b.votes.get i) (setStage_stage s _)).trans (stageIntervalExpiry_vote s i)
  refine (voteLaw_iff _).mpr ⟨?_, fun u hu => ?_, fun i => ?_⟩
  · rw [setStage_stage, stageIntervalExpiry_inForce]
    cases hp : s.stage.pendingSetup with
    | none => exact setup
    | some u => exact pending u hp
  · rw [setStage_stage, stageIntervalExpiry_pendingSetup] at hu
    cases hu
  · rw [settled, setStage_stage, stageIntervalExpiry_inForce]
    exact settledVote_lawful (replaceSetup_lawful begun i)

theorem takeReset_stage (pin : ResetPin) (s : State) : (takeReset pin s).stage = StageBlock.reset := by
  cases pin <;> rfl

theorem reset_voteLaw {s : State} (h : s.stage = StageBlock.reset) : VoteLaw s := by
  refine (voteLaw_iff s).mpr ?_
  unfold State.vote
  rw [h]
  refine ⟨rfl, fun u hu => (by cases hu), fun i => ?_⟩
  fin_cases i <;> constructor <;> simp [StageBlock.reset, VoteSetup.role, Vector.get]

theorem voteLaw_kept : KeptByRecords VoteLaw where
  reads s t _ hs _ _ _ _ h := voteLaw_congr h (congrArg _ hs) (congrArg _ hs) (congrArg _ hs)
  reset pin s _ := reset_voteLaw (takeReset_stage pin s)
  cursor _ _ _ h := voteLaw_congr h rfl rfl rfl
  settings s _ _ _ h := voteLaw_congr h (by rw [setSettings_stage]) (by rw [setSettings_stage]) (by rw [setSettings_stage])
  pendingSetup s u hu h := ⟨h.1, fun v hv => (by cases hv; exact hu), h.2.2⟩
  interval := interval_voteLaw
  draft _ _ _ h := voteLaw_congr h rfl rfl rfl
  adoptionRecord _ _ h := voteLaw_congr h rfl rfl rfl
  adopted _ _ _ _ h := voteLaw_congr h rfl rfl rfl
  bandsCleared _ h := voteLaw_congr h rfl rfl rfl
  band _ _ _ _ _ _ _ _ _ h := voteLaw_congr h rfl rfl rfl
  bandRetired _ _ _ _ _ h := voteLaw_congr h rfl rfl rfl
  acceptance s _ _ _ _ hq h := by
    obtain ⟨t, e⟩ := acceptShift_state hq
    rw [e]
    exact voteLaw_congr h rfl rfl rfl
  ramp _ h := voteLaw_congr h rfl rfl rfl
  verticals _ _ _ h := voteLaw_congr h rfl rfl rfl
  ruleDefined _ _ _ _ _ _ h := voteLaw_congr h rfl rfl rfl
  formed _ _ h := voteLaw_congr h rfl rfl rfl
  phase s h := by
    obtain ⟨p, n, e⟩ := patternPhaseEnd_eq s
    rw [e]
    exact voteLaw_congr h rfl rfl rfl
  second _ h := voteLaw_congr h rfl rfl rfl

/-! ### The stage record (R36, R40) -/

/-- R36, R37: a stage is chosen exactly with a quality, and a source exactly with Good or Failover. -/
theorem chooseStage_recordLaw (s : State) (e : StageInterval) : RecordLaw (newRecord s (chooseStage s) e) := by
  unfold newRecord RecordLaw chooseStage
  dsimp only
  split
  · split <;> simp
  · split
    · next held => simp [Option.isSome_iff_ne_none.mp held.1]
    · simp

theorem recordLaw_kept : KeptByRecords fun s => RecordLaw s.stage.record where
  reads s t _ hs _ _ _ _ h := by
    rw [hs]
    exact h
  reset pin s _ := by
    rw [takeReset_stage]
    simp [RecordLaw, StageBlock.reset]
  cursor _ _ _ h := h
  settings _ _ _ _ h := h
  pendingSetup _ _ _ h := h
  interval s _ := by
    rw [setStage_stage, stageIntervalExpiry_stage_eq]
    exact chooseStage_recordLaw _ _
  draft _ _ _ h := h
  adoptionRecord _ _ h := h
  adopted _ _ _ _ h := h
  bandsCleared _ h := h
  band _ _ _ _ _ _ _ _ _ h := h
  bandRetired _ _ _ _ _ h := h
  acceptance s _ _ _ _ hq h := by
    obtain ⟨t, e⟩ := acceptShift_state hq
    rw [e]
    exact h
  ramp _ h := h
  verticals _ _ _ h := h
  ruleDefined _ _ _ _ _ _ h := h
  formed _ _ h := h
  phase s h := by
    obtain ⟨p, n, e⟩ := patternPhaseEnd_eq s
    rw [e]
    exact h
  second _ h := h

/-! ### The answer slot (R172 to R175) -/

theorem attends_raise (s : State) (r q : Reason) : (s.raise r).attends q = (s.attends q || decide (r = q)) := by
  have e : (s.raise r).attends q = (s.attends q || (BitVec.twoPow 12 r.bit).getLsbD q.bit) := BitVec.getLsbD_or
  rw [e]
  congr 1
  cases r <;> cases q <;> decide

theorem PortLaw.of_eq {s t : State} (h : PortLaw s) (ha : t.attends .answerReady = s.attends .answerReady)
    (hs : t.port.slot = s.port.slot) (hm : t.port.mask = s.port.mask) : PortLaw t := by
  unfold PortLaw
  rw [ha, hs, hm]
  exact h

theorem PortLaw.of_frame {s t : State} (f : CableFrame s t) (h : PortLaw s) : PortLaw t :=
  h.of_eq f.answerReady f.slot f.mask

theorem PortLaw.of_port {s t : State} (h : PortLaw s) (e : t.port = s.port) : PortLaw t := by
  unfold PortLaw State.attends
  rw [e]
  exact h

theorem PortLaw.of_spread {s t : State} (f : SpreadFrame s t) (h : PortLaw s) : PortLaw t := by
  obtain ⟨w, n, f⟩ := f
  exact PortLaw.of_frame f (h.of_port rfl)

theorem fillSlot_portLaw (s : State) (a : Answer) (h : PortLaw s) : PortLaw (s.fillSlot a) := by
  refine ⟨?_, h.2⟩
  unfold State.fillSlot
  rw [attends_raise]
  exact Bool.or_true _

/-- R174: the slot and AnswerReady are emptied together. -/
theorem fetchFrame_portLaw (n : Nat) (s : State) (h : PortLaw s) : PortLaw (fetchFrame n s) := by
  unfold fetchFrame
  dsimp only
  split
  · exact h.of_eq rfl rfl rfl
  · split
    · refine ⟨?_, h.2⟩
      simp [State.attends, State.dropReason, holdsReason, removeReason, Reason.bit]
    · exact h.of_eq rfl rfl rfl

theorem maskOf_answerReady {w : Word} {m : BitVec 12} (h : maskOf w = some m) : holdsReason m .answerReady = false := by
  unfold maskOf at h
  split at h
  · next named =>
    cases h
    simpa [holdsReason, Reason.bit] using named.2
  · cases h

theorem takeReset_portLaw (pin : ResetPin) (s : State) : PortLaw (takeReset pin s) := by
  have port : (takeReset pin s).port.attention = 0x001 ∧ (takeReset pin s).port.slot = none ∧
      (takeReset pin s).port.mask = 0xFFD := by cases pin <;> exact ⟨rfl, rfl, rfl⟩
  obtain ⟨attention, slot, mask⟩ := port
  unfold PortLaw State.attends
  rw [attention, slot, mask]
  decide

theorem portLaw_kept : Kept PortLaw where
  frame _ _ f h := h.of_frame f
  pending _ _ h := h.of_port rfl
  slot := fillSlot_portLaw
  undriven _ h := h.of_eq rfl rfl rfl
  ignored _ h := h.of_eq rfl rfl rfl
  overrun s h := h.of_eq (by rw [attends_raise]; exact Bool.or_false _) rfl rfl
  fetch := fetchFrame_portLaw
  reset pin s _ := takeReset_portLaw pin s
  attention s hs h := ⟨by rw [setAttention_port_slot, hs]; exact BitVec.getLsbD_zero, h.2⟩
  mask s w m hm h := ⟨h.1, maskOf_answerReady hm⟩
  cursor _ _ _ h := h.of_eq rfl rfl rfl
  clock _ _ h := h.of_port rfl
  settings s _ ps _ _ _ h := by
    obtain ⟨v, n, f⟩ := applySettings_frame (applyPairs s.settings ps) s
    exact PortLaw.of_frame f (h.of_port rfl)
  configured s i c _ h := PortLaw.of_frame (putChannel_frame s i c) (h.of_port rfl)
  corrected s i _ _ h := PortLaw.of_frame (putChannel_frame s i _) (h.of_port rfl)
  pendingSetup _ _ _ h := h.of_port rfl
  draft s d _ h := by
    obtain ⟨r, f⟩ := draftChange_frame d s
    exact PortLaw.of_frame f (h.of_port rfl)
  adoptionRequest _ _ h := h.of_port rfl
  band _ _ _ _ _ _ _ _ _ h := h.of_port rfl
  bandRetired _ _ _ _ _ h := h.of_port rfl
  verticals _ _ _ _ h := h.of_port rfl
  meter _ _ h := h.of_port rfl
  newRun _ _ _ _ _ h := h.of_port rfl
  acceptance s _ _ _ _ hq h := by
    obtain ⟨t, e⟩ := acceptShift_state hq
    rw [e]
    exact h.of_port rfl
  ruleDefined _ _ _ _ _ _ h := h.of_port rfl
  ruleOut s k r after h := h.of_spread (takeRuleOut_spread k r after s)
  ruleAcknowledged s k r h := h.of_spread ((setRules_spread s _).trans (formEffects_spread _))
  quadrature i e s h := by
    obtain ⟨v, f⟩ := quadratureChange_frame i e s
    exact PortLaw.of_frame f (h.of_port rfl)
  mark i e s h := by
    obtain ⟨v, f⟩ := markEdge_frame i e s
    exact PortLaw.of_frame f (h.of_port rfl)
  pulse i s h := by
    obtain ⟨v, f⟩ := frequencyPulse_frame i s
    exact PortLaw.of_frame f (h.of_port rfl)
  gate i s h := by
    obtain ⟨v, f⟩ := gateCompletion_frame i s
    exact PortLaw.of_frame f (h.of_port rfl)
  settling i s h := by
    obtain ⟨v, f⟩ := settlingTimerExpiry_frame i s
    exact PortLaw.of_frame f (h.of_port rfl)
  interval s h := (h.of_port (setStage_port s _)).of_spread (stageIntervalExpiry_spread s)
  ramp _ h := h.of_port rfl
  adoption s h := by
    obtain ⟨r, f⟩ := adoptionCompletion_frame s
    exact PortLaw.of_frame f (h.of_port rfl)
  second _ h := h.of_port rfl
  boundary s h := PortLaw.of_frame (drivePeriodBoundary_frame s) (h.of_port rfl)
  contact c v s h := PortLaw.of_frame (contactChange_frame c v s) (h.of_port rfl)
  phase s h := by
    obtain ⟨p, n, e⟩ := patternPhaseEnd_eq s
    rw [e]
    exact h.of_port rfl

end Sys2Proof.Machine

open Sys2Proof.Machine

/-- Settles O14: each edit of a channel record leaves the condition, the reading, the gate and the timer in agreement. -/
theorem stepKeepsTheChannels : Obligations.StepKeepsTheChannels := fun s t h step =>
  step_keeps channelsLaw_kept s t h step

/-- Settles O15: a settlement keeps an Excluded record and the bounds of the others, and publishes a stage exactly with a
quality. -/
theorem stepKeepsTheVoteAndTheRecord : Obligations.StepKeepsTheVoteAndTheRecord :=
  ⟨fun s t h step => step_keeps voteLaw_kept.kept s t h step,
    fun s t h step => step_keeps recordLaw_kept.kept s t h step⟩

/-- Settles O16: an answer enters and leaves the slot with AnswerReady, and no mask is taken that names it. -/
theorem stepKeepsTheSlot : Obligations.StepKeepsTheSlot := fun s t h step =>
  step_keeps portLaw_kept s t h step

end

section
/-! The carriage law (R99 to R105) and the carriage of an Armed run (R121). An operation of the cableway leaves the
carriage lawful, and ends nothing and moves nothing while nothing is in progress; an operation of a run that is not Armed
keeps the carriage lawful and the run not Armed. -/

namespace Sys2Proof.Machine

/-! ### The carriage state of an activity -/

/-- R99 to R105: the carriage state that an activity has. -/
def Activity.Fits (a : Activity) (x : CarriageState) : Prop :=
  match a with
  | .homing _ => x = .homing
  | .moving (.traverseTo _ _) | .moving .goHome => x = .traversing
  | .moving (.lowerTo _ _ _ _) => x = .lowering
  | .moving (.raiseTo _) | .moving .raiseToTop => x = .raising
  | .idle => x = .unhomed ∨ x = .parked ∨ x = .holding ∨ x = .halted

theorem carriageLaw_iff (s : State) :
    CarriageLaw s ↔ s.cable.activity.Fits s.cable.state ∧
      (s.cable.activity = .idle → s.cable.traverse.active = false ∧ s.cable.hoist.active = false) := by
  unfold CarriageLaw Activity.Fits
  split <;> simp_all

theorem carriageLaw_of_busy {s : State} (fits : s.cable.activity.Fits s.cable.state) (busy : s.cable.activity ≠ .idle) :
    CarriageLaw s := (carriageLaw_iff s).mpr ⟨fits, fun idle => absurd idle busy⟩

theorem CarriageLaw.fits {s : State} (h : CarriageLaw s) : s.cable.activity.Fits s.cable.state :=
  ((carriageLaw_iff s).mp h).1

theorem CarriageLaw.fits_of {s : State} (h : CarriageLaw s) {a : Activity} (e : s.cable.activity = a) :
    a.Fits s.cable.state := e ▸ h.fits

theorem carriageLaw_congr {s t : State} (h : CarriageLaw s) (e : t.cable = s.cable) : CarriageLaw t := by
  rw [carriageLaw_iff, e]
  exact (carriageLaw_iff s).mp h

/-- R121: an Armed run's carriage has nothing in progress, as it is Parked. -/
theorem CarriageLaw.idle_of_parked {s : State} (h : CarriageLaw s) (parked : s.cable.state = .parked) :
    s.cable.activity = .idle := by
  have fits := h.fits
  rw [parked] at fits
  cases ha : s.cable.activity with
  | idle => rfl
  | homing p => rw [ha] at fits; cases fits
  | moving m => cases m <;> rw [ha] at fits <;> cases fits

/-- A cableway edited without changing what is in progress, and with no drive made active where nothing is. -/
theorem CarriageLaw.edit {s : State} {c : Cableway} (h : CarriageLaw s) (ha : c.activity = s.cable.activity)
    (hs : c.state = s.cable.state)
    (hd : s.cable.activity = .idle → (c.traverse.active = true → s.cable.traverse.active = true) ∧
      (c.hoist.active = true → s.cable.hoist.active = true)) : CarriageLaw (s.setCable c) := by
  obtain ⟨fits, inactive⟩ := (carriageLaw_iff s).mp h
  refine (carriageLaw_iff _).mpr ⟨?_, fun idle => ?_⟩
  · rw [setCable_cable, ha, hs]
    exact fits
  · have idle : s.cable.activity = .idle := ha.symm.trans idle
    obtain ⟨traverse, hoist⟩ := inactive idle
    exact ⟨Bool.eq_false_iff.mpr fun on => Bool.eq_false_iff.mp traverse ((hd idle).1 on),
      Bool.eq_false_iff.mpr fun on => Bool.eq_false_iff.mp hoist ((hd idle).2 on)⟩

/-- The end of a movement or homing leaves nothing in progress. -/
theorem rest_carriageLaw (s : State) {x : CarriageState} (hx : Activity.idle.Fits x) : CarriageLaw (s.rest x) :=
  (carriageLaw_iff _).mpr ⟨hx, fun _ => ⟨rfl, rfl⟩⟩

theorem fits_holding : Activity.idle.Fits .holding := .inr (.inr (.inl rfl))

theorem fits_parked : Activity.idle.Fits .parked := .inr (.inl rfl)

/-! ### A traverse asked to run (R104) -/

theorem travel_cable (way : TraverseWay) (s : State) :
    (travel way s).cable.activity = s.cable.activity ∧ (travel way s).cable.state = s.cable.state := by
  unfold travel
  split
  · exact ⟨rfl, rfl⟩
  · split <;> exact ⟨rfl, rfl⟩

theorem travel_carriageLaw {s : State} (way : TraverseWay) (fits : s.cable.activity.Fits s.cable.state)
    (busy : s.cable.activity ≠ .idle) : CarriageLaw (travel way s) := by
  obtain ⟨ha, hs⟩ := travel_cable way s
  exact carriageLaw_of_busy (by rw [ha, hs]; exact fits) (by rw [ha]; exact busy)

/-! ### Operations of the cableway -/

/-- What an operation of the cableway does with the carriage: it leaves it lawful, and while nothing is in progress it
ends nothing and leaves the carriage state. -/
structure CarriageStep (s : State) (m : Moved) : Prop where
  law : CarriageLaw s → CarriageLaw m.state
  gauging : m.state.gauging = s.gauging
  rests : CarriageLaw s → s.cable.activity = .idle → m.result = none ∧ m.state.cable.state = s.cable.state

namespace CarriageStep

theorem refl (s : State) : CarriageStep s (going s) := ⟨id, rfl, fun _ _ => ⟨rfl, rfl⟩⟩

/-- An operation made where something is in progress. -/
theorem busy {s : State} {m : Moved} (busy : s.cable.activity ≠ .idle) (law : CarriageLaw s → CarriageLaw m.state)
    (gauging : m.state.gauging = s.gauging) : CarriageStep s m :=
  ⟨law, gauging, fun _ idle => absurd idle busy⟩

theorem ended {s u : State} {x : CarriageState} (r : MoveResult) (busy : s.cable.activity ≠ .idle)
    (gauging : u.gauging = s.gauging) (hx : Activity.idle.Fits x) : CarriageStep s (endMovement u x r) :=
  CarriageStep.busy busy (fun _ => rest_carriageLaw u hx) gauging

/-- An operation after an edit of the cableway that keeps what is in progress. -/
theorem after {s u : State} {m : Moved} (k : CarriageStep u m) (law : CarriageLaw s → CarriageLaw u)
    (gauging : u.gauging = s.gauging) (ha : u.cable.activity = s.cable.activity) (hs : u.cable.state = s.cable.state) :
    CarriageStep s m :=
  ⟨fun h => k.law (law h), k.gauging.trans gauging, fun h idle => by
    obtain ⟨result, state⟩ := k.rests (law h) (ha.trans idle)
    exact ⟨result, state.trans hs⟩⟩

end CarriageStep

theorem testSlowZone_step (s : State) : CarriageStep s (going (testSlowZone s)) := by
  unfold testSlowZone
  split
  · exact ⟨fun h => h.edit rfl rfl fun _ => ⟨id, id⟩, rfl, fun _ _ => ⟨rfl, rfl⟩⟩
  · exact CarriageStep.refl s

theorem traverseTests_step (s : State) : CarriageStep s (traverseTests s) := by
  unfold traverseTests
  split
  · next ha =>
    split
    · exact .ended _ (by simp [ha]) rfl fits_holding
    · exact testSlowZone_step s
  · exact testSlowZone_step s

theorem hoistTests_step (s : State) : CarriageStep s (hoistTests s) := by
  unfold hoistTests
  split
  · next ha =>
    have busy : s.cable.activity ≠ .idle := by simp [ha]
    split
    · exact .ended _ busy rfl fits_holding
    · split
      · split
        · exact .ended _ busy rfl fits_holding
        · exact .refl s
      · split
        · exact .ended _ busy rfl fits_holding
        · exact .refl s
  · next ha =>
    split
    · exact .ended _ (by simp [ha]) rfl fits_holding
    · exact .refl s
  · next ha =>
    split
    · exact .ended _ (by simp [ha]) rfl fits_holding
    · exact .refl s
  · exact .refl s

theorem hoistTests_of_moving {s : State} {m : Movement} (ha : s.cable.activity = .moving m)
    (fits : (Activity.moving m).Fits s.cable.state) : CarriageLaw (hoistTests s).state :=
  (hoistTests_step s).law (carriageLaw_of_busy (by rw [ha]; exact fits) (by simp [ha]))

/-! ### Movements taken (R99 to R103) -/

theorem takeTraverseTo_carriageLaw (x : Int) (s : State) :
    CarriageLaw (takeTraverseTo x s).state := by
  unfold takeTraverseTo
  extract_lets way
  split
  · exact rest_carriageLaw _ fits_holding
  · split
    · exact rest_carriageLaw _ fits_holding
    · exact travel_carriageLaw _ rfl (by simp)

theorem takeGoHome_carriageLaw (s : State) : CarriageLaw (takeGoHome s).state := by
  unfold takeGoHome
  split
  · exact rest_carriageLaw _ fits_parked
  · exact travel_carriageLaw _ rfl (by simp)

theorem takeMovement_carriageLaw (m : MoveRequest) (s : State) (h : CarriageLaw s) :
    CarriageLaw (takeMovement m s).state := by
  unfold takeMovement
  split
  · exact h
  · split
    · exact takeTraverseTo_carriageLaw _ s
    · exact takeTraverseTo_carriageLaw _ s
    · exact takeGoHome_carriageLaw s
    · exact takeGoHome_carriageLaw s
    · unfold takeLowerTo
      dsimp only
      split
      · exact rest_carriageLaw _ fits_holding
      · exact hoistTests_of_moving rfl rfl
    · exact hoistTests_of_moving rfl rfl
    · exact hoistTests_of_moving rfl rfl
    · exact h

theorem stopMovement_carriageLaw (s : State) (h : CarriageLaw s) : CarriageLaw (stopMovement s).state := by
  unfold stopMovement
  split
  · exact rest_carriageLaw _ fits_holding
  all_goals exact h

/-! ### Homing, faults and tests on contacts -/

theorem loadHome_edit {s : State} (h : CarriageLaw s) : CarriageLaw (loadHome s) := h.edit rfl rfl fun _ => ⟨id, id⟩

theorem beginPhase_carriageLaw {s : State} (p : HomingPhase) (way : TraverseWay) (hs : s.cable.state = .homing) :
    CarriageLaw (beginPhase p way s) :=
  travel_carriageLaw way hs (by simp)

theorem afterRaisePhase_carriageLaw {s : State} (hs : s.cable.state = .homing) : CarriageLaw (afterRaisePhase s) := by
  unfold afterRaisePhase
  split
  · split
    · exact rest_carriageLaw _ fits_parked
    · exact beginPhase_carriageLaw _ _ hs
  · exact beginPhase_carriageLaw _ _ hs

theorem beginPhase_gauging (p : HomingPhase) (way : TraverseWay) (s : State) :
    (beginPhase p way s).gauging = s.gauging := travel_gauging way _

theorem afterRaisePhase_gauging (s : State) : (afterRaisePhase s).gauging = s.gauging := by
  unfold afterRaisePhase
  split
  · split
    · rfl
    · exact beginPhase_gauging _ _ s
  · exact beginPhase_gauging _ _ s

theorem beginHoming_carriageLaw (s : State) : CarriageLaw (beginHoming s) := by
  unfold beginHoming
  dsimp only
  split
  · exact afterRaisePhase_carriageLaw rfl
  · exact carriageLaw_of_busy rfl (by simp [Cableway.runHoist])

theorem beginHoming_gauging (s : State) : (beginHoming s).gauging = s.gauging := by
  unfold beginHoming
  dsimp only
  split
  · exact afterRaisePhase_gauging _
  · rfl

theorem Drive.active_of_on {δ : Type} {d : Drive δ} (h : d.on = true) : d.active = true := by
  simp [Drive.active, h]

/-- R109: a fault is taken of a drive that is on, which no drive is while nothing is in progress. -/
theorem takeFault_step (k : FaultKind) {s : State} (on : s.cable.traverse.on = true ∨ s.cable.hoist.on = true) :
    CarriageStep s (takeFault k s) := by
  refine ⟨fun _ => (carriageLaw_iff _).mpr ⟨.inr (.inr (.inr rfl)), fun _ => ⟨rfl, rfl⟩⟩, rfl, fun h idle => ?_⟩
  obtain ⟨traverse, hoist⟩ := ((carriageLaw_iff s).mp h).2 idle
  rcases on with on | on
  · exact absurd (Drive.active_of_on on) (by simp [traverse])
  · exact absurd (Drive.active_of_on on) (by simp [hoist])

theorem snagTest_step (s : State) : CarriageStep s (snagTest s) := by
  unfold snagTest
  split
  · next snag =>
    simp only [Bool.and_eq_true, Bool.or_eq_true] at snag
    exact takeFault_step _ snag.2
  · exact .refl s

theorem jamTest_step (s : State) : CarriageStep s (jamTest s) := by
  unfold jamTest
  split
  · next jam => exact takeFault_step _ (.inl (Bool.and_eq_true _ _ ▸ jam).1)
  · split
    · next jam => exact takeFault_step _ (.inr (Bool.and_eq_true _ _ ▸ jam).1)
    · exact .refl s

theorem jamExpiry_step (d : DriveName) (s : State) : CarriageStep s (jamExpiry d s) := by
  unfold jamExpiry
  cases d with
  | traverse =>
    dsimp only
    split
    · next on => exact takeFault_step _ (.inl on)
    · exact .refl s
  | hoist =>
    dsimp only
    split
    · next on => exact takeFault_step _ (.inr on)
    · exact .refl s

theorem travelWay_busy {a : Activity} {way : TraverseWay} (h : a.travelWay = some way) : a ≠ .idle := by
  rintro rfl
  cases h

theorem travel_step {s : State} (way : TraverseWay) (busy : s.cable.activity ≠ .idle) :
    CarriageStep s (going (travel way s)) :=
  .busy busy (fun h => travel_carriageLaw way h.fits busy) (travel_gauging way s)

theorem carryTest_step (s : State) : CarriageStep s (carryTest s) := by
  unfold carryTest
  split
  · next way travels =>
    have busy := travelWay_busy travels
    split
    · split
      · unfold resumeTravel
        split
        · exact .ended _ busy rfl fits_holding
        · exact travel_step way busy
      · exact .refl s
    · split
      · exact .refl s
      · exact travel_step way busy
  · exact .refl s

theorem enforceCarry_after {s : State} {m : Moved} (k : CarriageStep (enforceCarry s) m) : CarriageStep s m := by
  unfold enforceCarry at k
  split at k
  · exact k
  · refine k.after (fun h => h.edit rfl rfl fun _ => ⟨fun on => ?_, id⟩) rfl rfl rfl
    rw [Drive.off_active] at on
    cases on

theorem contactEnds_step (s : State) : CarriageStep s (contactEnds s) := by
  unfold contactEnds
  split
  · next ha =>
    have busy : s.cable.activity ≠ .idle := by simp [ha]
    split
    · exact .busy busy (fun h => afterRaisePhase_carriageLaw (h.fits_of ha)) (afterRaisePhase_gauging s)
    · exact .refl s
  · next ha =>
    have busy : s.cable.activity ≠ .idle := by simp [ha]
    split
    · exact carryTest_step s
    · exact .busy busy (fun h => beginPhase_carriageLaw _ _ (h.fits_of ha)) (beginPhase_gauging _ _ s)
  · exact carryTest_step s
  · exact carryTest_step s
  · exact carryTest_step s
  · exact hoistTests_step s
  · exact .refl s

theorem contactTests_step (s : State) : CarriageStep s (contactTests s) := enforceCarry_after (contactEnds_step _)

theorem homeEdge_step (s : State) : CarriageStep s (homeEdge s) := by
  unfold homeEdge
  split
  · next ha => exact .ended _ (by simp [ha]) rfl fits_parked
  · next ha => exact .busy (by simp [ha]) (fun _ => rest_carriageLaw _ fits_parked) rfl
  · exact (traverseTests_step _).after loadHome_edit rfl rfl rfl

theorem wetEdge_step (s : State) : CarriageStep s (wetEdge s) := by
  unfold wetEdge
  split
  · next ha =>
    refine .busy (by simp [ha]) (fun h => hoistTests_of_moving rfl ?_) (hoistTests_gauging _)
    have fits := h.fits
    rw [ha] at fits
    exact fits
  · exact .refl s

/-! ### The events of the cableway -/

theorem contactChange_step (c : Contact) (v : Level) (s : State) : CarriageStep s (contactChange c v s) := by
  have taken : ∀ {m : Moved},
      CarriageStep (s.setCable { s.cable with contacts := withLevel s.cable.contacts c v }) m → CarriageStep s m :=
    fun k => k.after (fun h => h.edit rfl rfl fun _ => ⟨id, id⟩) rfl rfl rfl
  unfold contactChange
  split
  · exact .refl s
  · dsimp only
    cases c with
    | home =>
      dsimp only
      split
      · exact taken (homeEdge_step _)
      · exact taken (contactTests_step _)
    | top => exact taken (contactTests_step _)
    | surface =>
      dsimp only
      split
      · exact taken (wetEdge_step _)
      · exact taken (.refl _)
    | bottom => exact taken (contactTests_step _)
    | snag => exact taken (snagTest_step _)

theorem traverseCountChange_step (e : QuadratureEdge) (s : State) : CarriageStep s (traverseCountChange e s) := by
  unfold traverseCountChange
  split
  · exact .refl s
  · exact (traverseTests_step _).after (fun h => h.edit rfl rfl fun _ => ⟨id, id⟩) rfl rfl rfl

theorem depthCountChange_step (e : QuadratureEdge) (s : State) : CarriageStep s (depthCountChange e s) := by
  unfold depthCountChange
  split
  · exact .refl s
  · exact (hoistTests_step _).after (fun h => h.edit rfl rfl fun _ => ⟨id, id⟩) rfl rfl rfl

theorem drivePeriodBoundary_step (s : State) : CarriageStep s (drivePeriodBoundary s) :=
  (snagTest_step _).after (fun h => h.edit rfl rfl fun _ => by
    dsimp only
    rw [atBoundary_active, atBoundary_active]
    exact ⟨id, id⟩) rfl rfl rfl

theorem heldBack_edit {s : State} (h : CarriageLaw s) : CarriageLaw (s.setCable s.cable.heldBack) :=
  h.edit rfl rfl fun _ => by
    unfold Cableway.heldBack
    refine ⟨fun on => ?_, fun on => ?_⟩
    · dsimp only at on
      split at on
      · cases on
      · exact on
    · dsimp only at on
      split at on
      · cases on
      · exact on

theorem inhibitCable_step (s : State) : CarriageStep s (inhibitCable s) := by
  have held : ∀ {m : Moved}, CarriageStep (s.setCable s.cable.heldBack) m → CarriageStep s m := fun k =>
    k.after heldBack_edit rfl rfl rfl
  unfold inhibitCable
  dsimp only
  split
  · next ha =>
    split
    · exact held (.refl _)
    · exact .ended _ (by simp [ha]) rfl fits_holding
  · next ha => exact .ended _ (by simp [ha]) rfl fits_holding
  · next ha =>
    exact .busy (by simp [ha]) (fun h => beginPhase_carriageLaw _ _ (h.fits_of ha))
      (beginPhase_gauging _ _ _)
  · exact held (.refl _)

/-! ### Operations of a run that is not Armed -/

/-- The carriage is lawful, and no run is Armed. -/
def Underway (s : State) : Prop := CarriageLaw s ∧ s.run.state ≠ .armed

theorem Underway.congr {s t : State} (h : Underway s) (hc : t.cable = s.cable) (hr : t.run.state = s.run.state) :
    Underway t := ⟨carriageLaw_congr h.1 hc, by rw [hr]; exact h.2⟩

theorem Underway.gauging {s : State} (h : Underway s) {g : GaugingUnit} (hg : g.run.state ≠ .armed) :
    Underway (s.setGauging g) := ⟨carriageLaw_congr h.1 rfl, hg⟩

theorem Underway.setRun {s : State} (h : Underway s) {r : RunRecord} (hr : r.state = s.run.state) :
    Underway (s.setRun r) := ⟨carriageLaw_congr h.1 rfl, hr.trans_ne h.2⟩

theorem Underway.ask {s : State} (h : Underway s) (x : Step) (m : MoveRequest) : Underway (ask x m s).state := by
  refine ⟨takeMovement_carriageLaw m _ (carriageLaw_congr h.1 rfl), ?_⟩
  unfold Machine.ask State.run
  rw [takeMovement_gauging]
  exact h.2

theorem Underway.stop {s : State} (h : Underway s) : Underway (stopMovement s).state := by
  refine ⟨stopMovement_carriageLaw s h.1, ?_⟩
  unfold State.run
  rw [stopMovement_gauging]
  exact h.2

theorem Underway.updateEntry {s : State} (h : Underway s) (f : Entry → Entry) : Underway (s.updateEntry f) :=
  h.congr rfl rfl

theorem Underway.appendEntries {s : State} (h : Underway s) (es : List Entry) : Underway (s.appendEntries es) :=
  h.congr rfl rfl

theorem Underway.stow {s : State} (h : Underway s) : Underway (stow s).state := h.ask _ _

theorem Underway.stowDry {s : State} (h : Underway s) : Underway (stowDry s).state := (h.updateEntry _).stow

theorem Underway.endRun {s : State} (h : CarriageLaw s) {r : RunRecord} (hr : r.state ≠ .armed) :
    Underway (endRun r s) := ⟨carriageLaw_congr h rfl, hr⟩

theorem Underway.finishReturn {s : State} (h : Underway s) : Underway (finishReturn s) := by
  unfold Machine.finishReturn
  split
  · exact Underway.endRun h.1 (fun e => by cases e)
  · exact Underway.endRun h.1 (fun e => by cases e)

theorem Underway.abortRun {s : State} (h : Underway s) (reason : EndReason) : Underway (abortRun reason s).state := by
  unfold Machine.abortRun
  dsimp only
  have stamped : ∀ r : RunRecord, r.state = .returning →
      Underway (s.setGauging { s.gauging with run := r, dwell := none }) :=
    fun r hr => h.gauging fun armed => by cases hr.symm.trans armed
  split
  · exact (stamped _ rfl).stop
  · exact (stamped _ rfl).stop
  · exact stamped _ rfl
  · exact (stamped _ rfl).finishReturn
  · exact (stamped _ rfl).ask _ _

theorem Underway.faultedEnd {s : State} (h : Underway s) : Underway (faultedEnd s) := by
  unfold Machine.faultedEnd
  split <;> exact Underway.endRun h.1 (fun e => by cases e)

theorem Underway.restartRun {s : State} (h : Underway s) : Underway (restartRun s) := by
  unfold Machine.restartRun
  split
  · exact Underway.endRun h.1 (fun e => by cases e)
  · exact Underway.endRun h.1 (fun e => by cases e)
  · exact Underway.endRun h.1 (fun e => by cases e)
  · exact h

theorem Underway.enterVertical {s : State} (h : Underway s) (i : Nat) : Underway (enterVertical i s) := by
  unfold Machine.enterVertical
  split
  · exact h.congr rfl rfl
  · exact h

theorem Underway.traverseToVertical {s : State} (h : Underway s) (i : Nat) : Underway (traverseToVertical i s).state := by
  unfold Machine.traverseToVertical
  split
  · exact h.ask _ _
  · exact h

theorem Underway.finishVertical {s : State} (h : Underway s) : Underway (finishVertical s).state := by
  unfold Machine.finishVertical
  split
  · exact (h.enterVertical _).traverseToVertical _
  · unfold endMeasuring
    exact Underway.ask (h.gauging (fun e => by cases e)) _ _

theorem Underway.placeNext {s : State} (h : Underway s) : Underway (placeNext s).state := by
  unfold Machine.placeNext
  split
  · split
    · exact h.ask _ _
    · exact h.stow
  · exact h.stow

theorem Underway.beginDwell {s : State} (h : Underway s) (surface : Bool) : Underway (beginDwell surface s).state :=
  h.congr rfl rfl

theorem Underway.arriveWith {s : State} (h : Underway s) (i : Nat) (v : Vertical) (stage : Int) :
    Underway (arriveWith i v stage s).state := by
  have arrived : ∀ (es : List Entry) (g : GaugingUnit), g.run.state = s.run.state →
      Underway ((s.appendEntries es).setGauging g) := fun es g hg =>
    (h.appendEntries es).gauging (by rw [hg]; exact h.2)
  unfold Machine.arriveWith
  dsimp only
  split_ifs
  · refine ((arrived _ _ ?_).updateEntry _).finishVertical
    rfl
  · refine ((arrived _ _ ?_).setRun ?_).ask _ _
    · rfl
    · rfl
  · refine (arrived _ _ ?_).ask _ _
    rfl

theorem Underway.arrival {s : State} (h : Underway s) : Underway (arrival s).state := by
  unfold Machine.arrival
  split
  · exact h.abortRun _
  · split
    · exact h.arriveWith _ _ _
    · exact h
  · exact h

theorem takeSounding_run (i : Nat) (depth : Int) (s : State) : (takeSounding i depth s).1.run = s.run := by
  rw [takeSounding_state]
  rfl

theorem Underway.bottomFound {s : State} (h : Underway s) (depth : Int) : Underway (bottomFound depth s).state := by
  have sounded : Underway (takeSounding (s.run.current.getD 0) depth s).1 := by
    refine h.congr ?_ (congrArg _ (takeSounding_run _ _ s))
    rw [takeSounding_state]
    rfl
  unfold Machine.bottomFound
  dsimp only
  split
  · refine (((sounded.updateEntry _).setRun ?_).updateEntry _).stow
    rfl
  · refine ((sounded.updateEntry _).setRun ?_).placeNext
    rfl

theorem Underway.lowerResult {s : State} (h : Underway s) (how : LowerEnd) (stop : Bool) :
    Underway (lowerResult how stop s).state := by
  unfold Machine.lowerResult
  split
  · unfold soundResult
    split
    · exact h.bottomFound _
    · exact h.stowDry
    · exact (h.updateEntry _).placeNext
    · exact h.stowDry
  · unfold surfaceResult
    split
    · exact h.beginDwell _
    · exact h.beginDwell _
    · exact h.stowDry
    · exact h.stowDry

/-- R118, R124 to R135: a result taken keeps the carriage lawful and arms no run. -/
theorem Underway.takeResult {s : State} (h : Underway s) (r : MoveResult) : Underway (takeResult r s).state := by
  unfold Machine.takeResult
  split
  · exact h.abortRun _
  · exact h.faultedEnd
  · exact h.restartRun
  · exact h.arrival
  · exact h.lowerResult _ _
  · exact h.beginDwell _
  · exact h.finishVertical
  · exact h.faultedEnd
  · exact h.restartRun
  · exact h.ask _ _
  · exact h.ask _ _
  · exact h.ask _ _
  · exact h.ask _ _
  · exact h.finishReturn
  · exact h

theorem Underway.drain (n : Nat) {s : State} (h : Underway s) (r : MoveResult) : Underway (drain n r s) := by
  induction n generalizing s r with
  | zero => exact h
  | succ n ih =>
    unfold Machine.drain
    split
    · exact h.takeResult r
    · exact ih (h.takeResult r) _

theorem Underway.deliver {m : Moved} (h : Underway m.state) : Underway (deliver m) := by
  unfold Machine.deliver
  split
  · exact h
  · exact h.drain _ _

theorem Underway.recordPoint {s : State} (h : Underway s) (d : Dwell) : Underway (recordPoint d s).state := by
  unfold Machine.recordPoint
  dsimp only
  split
  · exact (h.updateEntry _).stow
  · split
    · split
      · exact (h.updateEntry _).placeNext
      · exact ((h.updateEntry _).updateEntry _).stow
    · exact (h.updateEntry _).stow

/-- R123: a run that starts is Running before the carriage moves. -/
theorem startRunning_underway {s : State} (h : CarriageLaw s) : Underway (startRunning s) := by
  have running : ∀ g : GaugingUnit, g.run.state = .running → Underway ((s.setGauging g).raise .runStarted) :=
    fun g hg => ⟨carriageLaw_congr h rfl, fun armed => by cases hg.symm.trans armed⟩
  unfold startRunning
  dsimp only
  split
  · exact running _ rfl
  · split
    · exact Underway.deliver (((running _ rfl).enterVertical _).abortRun _)
    · exact Underway.deliver (((running _ rfl).enterVertical _).traverseToVertical _)

/-! ### Both laws together -/

/-- The carriage law with the law of the Armed run. -/
def CarriageLaws (s : State) : Prop := CarriageLaw s ∧ ArmedLaw s

theorem Underway.laws {s : State} (h : Underway s) : CarriageLaws s := ⟨h.1, fun armed => absurd armed h.2⟩

theorem CarriageLaws.congr {s t : State} (h : CarriageLaws s) (hc : t.cable = s.cable)
    (hr : t.run.state = s.run.state) : CarriageLaws t :=
  ⟨carriageLaw_congr h.1 hc, fun armed => by rw [hc]; exact h.2 (hr.symm.trans armed)⟩

/-- An operation of the cableway and what the run makes of it: an Armed run's carriage has nothing in progress. -/
theorem CarriageLaws.deliver {s : State} {m : Moved} (h : CarriageLaws s) (k : CarriageStep s m) :
    CarriageLaws (deliver m) := by
  obtain ⟨law, armed⟩ := h
  have run : m.state.run = s.run := congrArg GaugingUnit.run k.gauging
  by_cases ha : s.run.state = .armed
  · have parked := armed ha
    obtain ⟨none, state⟩ := k.rests law (law.idle_of_parked parked)
    unfold Machine.deliver
    rw [none]
    exact ⟨k.law law, fun _ => state.trans parked⟩
  · exact (Underway.deliver ⟨k.law law, by rw [run]; exact ha⟩).laws

theorem CarriageLaws.startIfReady {s : State} (h : CarriageLaws s) : CarriageLaws (startIfReady s) := by
  unfold Machine.startIfReady
  split
  · exact (startRunning_underway h.1).laws
  · exact h

theorem CarriageLaws.inhibitEnters {s : State} (h : CarriageLaws s) : CarriageLaws (inhibitEnters s) := by
  have taken := h.deliver (inhibitCable_step s)
  unfold Machine.inhibitEnters inhibitRun
  split
  · next running =>
    have under : Underway (Machine.deliver (inhibitCable s)) := ⟨taken.1, fun armed => by cases running.symm.trans armed⟩
    exact (under.abortRun _).deliver.laws
  · exact taken

theorem CarriageLaws.formEffects {s : State} (h : CarriageLaws s) : CarriageLaws (formEffects s) := by
  have formed : CarriageLaws (s.setWarning s.warning.form) := h.congr rfl rfl
  unfold Machine.formEffects
  dsimp only
  split
  · exact formed.inhibitEnters
  · split
    · exact formed.startIfReady
    · exact formed

theorem CarriageLaws.raiseIf {s : State} (h : CarriageLaws s) (b : Bool) (r : Reason) : CarriageLaws (s.raiseIf b r) :=
  h.congr (by simp) (by simp [State.run])

theorem CarriageLaws.evaluate {s : State} (h : CarriageLaws s) : CarriageLaws (evaluate s) := by
  have ruled : CarriageLaws (s.setRules (evaluateRules s)) := h.congr rfl rfl
  exact ((ruled.raiseIf _ _).raiseIf _ _).formEffects

theorem CarriageLaws.takeRuleOut {s : State} (h : CarriageLaws s) (k : Nat) (r : Rule) (after : Option Rule) :
    CarriageLaws (takeRuleOut k r after s) := by
  have ruled : CarriageLaws (s.setRules (s.warning.rules.put k after)) := h.congr rfl rfl
  exact (ruled.raiseIf _ _).formEffects

theorem CarriageLaws.gaugingTakesPublication {s : State} (h : CarriageLaws s) :
    CarriageLaws (gaugingTakesPublication s) := by
  unfold Machine.gaugingTakesPublication
  refine CarriageLaws.startIfReady ?_
  split
  · exact h.congr rfl rfl
  · exact h

theorem settle_gauging (e : StageInterval) (s : State) : (settle e s).gauging = s.gauging ∧ (settle e s).cable = s.cable := by
  have votes : ∀ (u : State) v, (u.setVotes v).gauging = u.gauging ∧ (u.setVotes v).cable = u.cable := fun u v => by
    unfold State.setVotes
    exact ⟨raiseIf_gauging _ _ _, raiseIf_cable _ _ _⟩
  have replaced : (replaceSetup s).gauging = s.gauging ∧ (replaceSetup s).cable = s.cable := by
    unfold replaceSetup
    split
    · exact ⟨rfl, rfl⟩
    · exact votes s _
  obtain ⟨voted, voted'⟩ := votes (replaceSetup s) (Vector.ofFn (replaceSetup s).settledVote)
  exact ⟨(raiseIf_gauging _ _ _).trans (voted.trans replaced.1), (raiseIf_cable _ _ _).trans (voted'.trans replaced.2)⟩

theorem CarriageLaws.publication {s : State} (h : CarriageLaws s) : CarriageLaws (consumePublication s) := by
  have counted : CarriageLaws (s.setFreeReads (s.freeReads + 1)) := h.congr rfl rfl
  unfold consumePublication
  refine chooseOutcome_of_all _ _ _ counted.gaugingTakesPublication.evaluate fun o ho => ?_
  rw [List.mem_singleton.mp ho]
  exact counted.evaluate.gaugingTakesPublication

theorem CarriageLaws.interval {s : State} (h : CarriageLaws s) : CarriageLaws (stageIntervalExpiry s) := by
  obtain ⟨gauging, cable⟩ := settle_gauging s.stage.interval (s.setStage { s.stage with interval := nextInterval s })
  have settled : CarriageLaws (settle s.stage.interval (s.setStage { s.stage with interval := nextInterval s })) :=
    h.congr (cable.trans (setStage_cable s _))
      (congrArg (fun g => g.run.state) (gauging.trans (setStage_gauging s _)))
  exact settled.publication

/-- R180: the tests a settings write brings about, in any order, are operations of the cableway. -/
theorem CarriageLaws.applySettings {s : State} (h : CarriageLaws s) (t : Settings) : CarriageLaws (applySettings t s) := by
  refine retestCable_of_orders fun fs hfs => ?_
  have written : CarriageLaws (whenChanged [.stageFloor, .stageCeiling] s.settings t retestChannels (s.setSettings t)) :=
    whenChanged_keeps (fun u hu => CarriageLaws.raiseIf (hu.congr rfl rfl) _ _) _ _ _ _ (h.congr rfl rfl)
  have keep : ∀ f ∈ fs, ∀ u, CarriageLaws u → CarriageLaws (f u) := fun f hf =>
    cableTests_keep (fun u hu => hu.deliver (jamTest_step u)) (fun u hu => hu.deliver (snagTest_step u))
      (fun u hu => hu.deliver (contactTests_step u)) _ _ f ((hfs f).mp hf)
  have turns : ∀ (gs : List (State → State)) u, (∀ f ∈ gs, ∀ u, CarriageLaws u → CarriageLaws (f u)) →
      CarriageLaws u → CarriageLaws (inTurn gs u) := by
    intro gs
    induction gs with
    | nil => exact fun _ _ hu => hu
    | cons g gs ih =>
      exact fun u k hu => ih _ (fun f hf => k f (List.mem_cons_of_mem _ hf)) (k g List.mem_cons_self u hu)
  exact turns fs _ keep (written.congr rfl rfl)

/-! ### Requests -/

/-- An event of a channel writes that channel, if it does anything. -/
theorem quadratureChange_puts (i : ChannelNumber) (e : QuadratureEdge) (s : State) :
    quadratureChange i e s = s ∨ ∃ c, quadratureChange i e s = s.putChannel i c := by
  unfold quadratureChange
  dsimp only
  split
  · exact .inr ⟨_, rfl⟩
  · exact .inl rfl

theorem markEdge_puts (i : ChannelNumber) (e : Edge) (s : State) :
    markEdge i e s = s ∨ ∃ c, markEdge i e s = s.putChannel i c := by
  unfold markEdge
  dsimp only
  split
  · split <;> exact .inr ⟨_, rfl⟩
  · exact .inr ⟨_, rfl⟩

theorem frequencyPulse_puts (i : ChannelNumber) (s : State) :
    frequencyPulse i s = s ∨ ∃ c, frequencyPulse i s = s.putChannel i c := by
  unfold frequencyPulse
  dsimp only
  split
  · exact .inr ⟨_, rfl⟩
  · exact .inl rfl

theorem gateCompletion_puts (i : ChannelNumber) (s : State) :
    gateCompletion i s = s ∨ ∃ c, gateCompletion i s = s.putChannel i c := by
  unfold gateCompletion
  dsimp only
  split
  · exact .inr ⟨_, rfl⟩
  · exact .inl rfl

theorem settlingTimerExpiry_puts (i : ChannelNumber) (s : State) :
    settlingTimerExpiry i s = s ∨ ∃ c, settlingTimerExpiry i s = s.putChannel i c := by
  unfold settlingTimerExpiry
  dsimp only
  split
  · exact .inr ⟨_, rfl⟩
  · exact .inl rfl

theorem CarriageLaws.putChannel {s : State} (h : CarriageLaws s) (i : ChannelNumber) (c : Channel) :
    CarriageLaws (s.putChannel i c) := by
  have put : ∀ v, CarriageLaws (s.setChannels v) := fun v => h.congr rfl rfl
  exact (put _).raiseIf _ _

theorem CarriageLaws.draftChange {s : State} (h : CarriageLaws s) (d : List Point) : CarriageLaws (draftChange d s) := by
  unfold Machine.draftChange
  split <;> exact h.congr rfl rfl

theorem CarriageLaws.commitEntry {s t : State} (h : CarriageLaws s) {fields : List Word}
    (e : commitEntry fields s = .ok t) : CarriageLaws t := by
  unfold Machine.commitEntry at e
  split at e
  · split at e
    · cases e
    · cases e
      exact h.draftChange _
  · split at e
    · cases e
    · cases e
      exact CarriageLaws.startIfReady (h.congr rfl rfl)
  · cases e

theorem CarriageLaws.takeValues {s : State} (h : CarriageLaws s) (ws : List Word) (n : Nat) :
    CarriageLaws (takeValues ws n s).state := by
  cases ws with
  | nil => exact h
  | cons w ws =>
    unfold Machine.takeValues
    dsimp only
    split
    · have kept : CarriageLaws (s.setCursor { s.port.cursor with fields := s.port.cursor.fields ++ [w] }) :=
        h.congr rfl rfl
      exact kept.takeValues ws (n + 1)
    · split
      · exact h.congr rfl rfl
      · next u e =>
        have advanced : CarriageLaws (u.advanceCursor 1) := (h.commitEntry e).congr rfl rfl
        exact advanced.takeValues ws (n + 1)

theorem CarriageLaws.beginRun {s : State} (h : CarriageLaws s) (parked : s.cable.state = .parked) (c : StartCondition) :
    CarriageLaws (beginRun c s) := by
  unfold Machine.beginRun
  dsimp only
  split
  · have begun : CarriageLaw (s.setGauging { s.gauging with
        run := armedRecord s .immediate, nextId := idAfter s.gauging.nextId }) := carriageLaw_congr h.1 rfl
    exact (startRunning_underway begun).laws
  · exact ⟨carriageLaw_congr h.1 rfl, fun _ => parked⟩

theorem restartRun_not_armed (s : State) : (restartRun s).run.state ≠ .armed := by
  unfold restartRun
  split
  · simp [endRun, State.run, State.setGauging, State.raise, State.setPort]
  · simp [endRun, State.run, State.setGauging, State.raise, State.setPort]
  · simp [endRun, State.run, State.setGauging, State.raise, State.setPort]
  · next armed _ _ => exact armed

/-- R113, R183: RESTART leaves nothing in progress and no run Armed. -/
theorem restartBlocks_laws (s : State) : CarriageLaws (restartBlocks s) := by
  have stopped : CarriageLaw (restartCable s).state := (carriageLaw_iff _).mpr ⟨.inl rfl, fun _ => ⟨rfl, rfl⟩⟩
  have ended : Underway (restartRun (Machine.deliver (restartCable s))) := by
    rw [restartRun_cable]
    have cable : (restartRun (restartCable s).state).cable = (restartCable s).state.cable := by
      unfold restartRun
      split <;> rfl
    exact ⟨carriageLaw_congr stopped cable, restartRun_not_armed _⟩
  exact (ended.congr (t := restartBlocks s) rfl rfl).laws

/-- R173: what the owners of requests keep. -/
theorem CarriageLaws.owner {s : State} (h : CarriageLaws s) (r : RequestName) (p : List Byte) :
    CarriageLaws (owner r p s).state := by
  have turned : ∀ {x : Taken}, Turned x s → CarriageLaws x.state := fun k => by rw [k.state]; exact h
  have answers : ∀ {x : Taken}, Answers x s → CarriageLaws x.state := fun ⟨_, e⟩ => by rw [e]; exact h
  have taken : ∀ {x : Taken} {t : State} {b : List Byte}, x = done t b ∨ x = accepted t b → CarriageLaws t →
      CarriageLaws x.state := fun e k => by
    rcases e with rfl | rfl <;> exact k
  cases r with
  | identify => exact (identify_cases p s).elim turned answers
  | readAttention => exact (readAttention_cases p s).elim turned fun ⟨_, e⟩ => taken (.inl e) (h.congr rfl rfl)
  | setAttentionMask =>
    exact (setAttentionMask_cases p s).elim turned fun k => k.elim answers fun ⟨_, _, _, _, e⟩ =>
      taken (.inl e) (h.congr rfl rfl)
  | setClock => exact (setClock_cases p s).elim turned fun ⟨_, _, e⟩ => taken (.inl e) (h.congr rfl rfl)
  | readClock => exact (readClock_cases p s).elim turned answers
  | writeSettings =>
    exact (writeSettings_cases p s).elim turned fun ⟨_, _, _, _, _, e⟩ => taken (.inl e) (h.applySettings _)
  | readSettings => exact (readSettings_cases p s).elim turned answers
  | readStation => exact (readStation_cases p s).elim turned answers
  | restart => exact (restart_cases p s).elim turned fun ⟨_, e⟩ => taken (.inl e) (restartBlocks_laws s)
  | configureChannel =>
    exact (configureChannel_cases p s).elim turned fun ⟨_, _, e, _⟩ => taken (.inl e) (h.putChannel _ _)
  | setChannelStage =>
    exact (setChannelStage_cases p s).elim turned fun ⟨_, _, _, _, e⟩ => taken (.inl e) (h.putChannel _ _)
  | readChannel => exact (readChannel_cases p s).elim turned answers
  | setVote =>
    exact (setVote_cases p s).elim turned fun k => k.elim answers fun ⟨_, _, _, e⟩ => taken (.inl e) (h.congr rfl rfl)
  | setCursor =>
    exact (setCursor_cases p s).elim turned fun k => k.elim answers fun ⟨_, _, _, _, e⟩ =>
      taken (.inl e) (h.congr rfl rfl)
  | writeFields =>
    show CarriageLaws (writeFields p s).state
    rcases writeFields_cases p s with e | ⟨ws, -, -, e⟩
    · rwa [e]
    · rw [e]
      exact h.takeValues ws 0
  | readEntries => exact (readEntries_cases p s).elim turned fun ⟨_, _, _, e⟩ => taken (.inl e) (h.congr rfl rfl)
  | retirePoint => exact (retirePoint_cases p s).elim turned fun ⟨_, _, e⟩ => taken (.inl e) (h.draftChange _)
  | copyRating => exact (copyRating_cases p s).elim turned fun ⟨_, e⟩ => taken (.inl e) (h.draftChange _)
  | adoptRating => exact (adoptRating_cases p s).elim turned fun ⟨_, e⟩ => taken (.inr e) (h.congr rfl rfl)
  | lookup => exact (lookup_cases p s).elim turned answers
  | defineShift =>
    exact (defineShift_cases p s).elim turned fun ⟨_, _, _, _, _, _, _, _, _, e⟩ => taken (.inl e) (h.congr rfl rfl)
  | retireShift => exact (retireShift_cases p s).elim turned fun ⟨_, _, _, _, _, e⟩ => taken (.inl e) (h.congr rfl rfl)
  | readShifts => exact (readShifts_cases p s).elim turned answers
  | retireVertical =>
    exact (retireVertical_cases p s).elim turned fun ⟨_, _, _, _, e⟩ =>
      taken (.inl e) (CarriageLaws.startIfReady (h.congr rfl rfl))
  | homeCarriage =>
    exact (homeCarriage_cases p s).elim turned fun ⟨_, notArmed, _, e⟩ => taken (.inr e)
      (Underway.laws ⟨beginHoming_carriageLaw s, by unfold State.run; rw [beginHoming_gauging]; exact notArmed⟩)
  | clearFault =>
    refine (clearFault_cases p s).elim turned fun ⟨halted, e⟩ => taken (.inl e) ?_
    obtain ⟨fits, inactive⟩ := (carriageLaw_iff s).mp h.1
    have idle : s.cable.activity = .idle := by
      cases ha : s.cable.activity with
      | idle => rfl
      | homing q => rw [ha, halted] at fits; cases fits
      | moving m => cases m <;> rw [ha, halted] at fits <;> cases fits
    refine ⟨(carriageLaw_iff _).mpr ⟨?_, inactive⟩, fun armed => ?_⟩
    · rw [setCable_cable, idle]
      exact .inl rfl
    · cases halted.symm.trans (h.2 armed)
  | setMeter =>
    exact (setMeter_cases p s).elim turned fun k => k.elim answers fun ⟨_, _, _, e⟩ => taken (.inl e) (h.congr rfl rfl)
  | startRun =>
    exact (startRun_cases p s).elim turned fun ⟨c, _, _, parked, _, e⟩ => taken (.inr e) (h.beginRun parked c)
  | abortRun =>
    show CarriageLaws (abortRunRequest p s).state
    rcases abortRunRequest_cases p s with k | ⟨-, e⟩ | ⟨running, e⟩
    · exact turned k
    · exact taken (.inl e) (Underway.laws (Underway.endRun h.1 (fun e => by cases e)))
    · have under : Underway s := ⟨h.1, fun armed => by cases running.symm.trans armed⟩
      exact taken (.inl e) (under.abortRun _).deliver.laws
  | readRun => exact (readRun_cases p s).elim turned answers
  | acceptGauging =>
    refine (acceptGauging_cases p s).elim turned fun ⟨_, _, _, _, _, _, hq, e⟩ => taken (.inl e) ?_
    obtain ⟨t, placed⟩ := acceptShift_state hq
    rw [placed]
    exact Underway.laws ⟨carriageLaw_congr h.1 rfl, by simp [State.run, RunRecord.accept]⟩
  | defineRule =>
    exact (defineRule_cases p s).elim turned fun ⟨_, _, _, _, _, _, e⟩ => taken (.inl e) (h.congr rfl rfl)
  | armRule => exact (armRule_cases p s).elim turned fun ⟨_, _, _, _, _, _, e⟩ => taken (.inl e) (h.congr rfl rfl)
  | disarmRule =>
    exact (disarmRule_cases p s).elim turned fun ⟨_, _, _, _, _, _, e⟩ => taken (.inl e) (h.takeRuleOut _ _ _)
  | acknowledge =>
    exact (acknowledge_cases p s).elim turned fun ⟨_, _, _, _, _, _, _, e⟩ =>
      taken (.inl e) (CarriageLaws.formEffects (h.congr rfl rfl))
  | retireRule => exact (retireRule_cases p s).elim turned fun ⟨_, _, _, _, _, e⟩ => taken (.inl e) (h.takeRuleOut _ _ _)
  | readRule => exact (readRule_cases p s).elim turned answers

/-! ### The remaining commands -/

theorem CarriageLaws.fetch {s : State} (h : CarriageLaws s) (n : Nat) : CarriageLaws (fetchFrame n s) := by
  unfold fetchFrame
  dsimp only
  split
  · exact h.congr rfl rfl
  · split <;> exact h.congr rfl rfl

theorem takeReset_laws (pin : ResetPin) (s : State) : CarriageLaws (takeReset pin s) := by
  obtain ⟨contacts, cable⟩ := takeReset_cable pin s
  have run : (takeReset pin s).run.state = .none := by cases pin <;> rfl
  refine Underway.laws ⟨(carriageLaw_iff _).mpr ?_, by rw [run]; decide⟩
  rw [cable]
  exact ⟨.inl rfl, fun _ => ⟨rfl, rfl⟩⟩

theorem CarriageLaws.second {s : State} (h : CarriageLaws s) : CarriageLaws (clockSecond s) := by
  have ticked : CarriageLaws
      (s.setCable { s.cable with traverse := s.cable.traverse.second, hoist := s.cable.hoist.second }) :=
    ⟨h.1.edit rfl rfl fun _ => by
      dsimp only
      rw [second_active, second_active]
      exact ⟨id, id⟩, h.2⟩
  exact ticked.congr rfl rfl

theorem takeResult_armed {s : State} (armed : s.run.state = .armed) (r : MoveResult) : takeResult r s = going s := by
  unfold takeResult
  split <;> simp_all

theorem drain_armed (n : Nat) {s : State} (armed : s.run.state = .armed) (r : MoveResult) : drain n r s = s := by
  cases n with
  | zero => rfl
  | succ n =>
    unfold drain
    rw [takeResult_armed armed]
    rfl

theorem deliver_armed {m : Moved} (armed : m.state.run.state = .armed) : deliver m = m.state := by
  unfold deliver
  split
  · rfl
  · exact drain_armed _ armed _

/-- R121: the run is Armed with the carriage Parked. -/
def Waiting (s : State) : Prop := CarriageLaw s ∧ s.run.state = .armed ∧ s.cable.state = .parked

theorem Waiting.laws {s : State} (h : Waiting s) : CarriageLaws s := ⟨h.1, fun _ => h.2.2⟩

theorem Waiting.updateEntry {s : State} (h : Waiting s) (f : Entry → Entry) : Waiting (s.updateEntry f) :=
  ⟨carriageLaw_congr h.1 rfl, h.2.1, h.2.2⟩

/-- R99: a Parked carriage refuses to raise. -/
theorem Waiting.raises {s : State} (h : Waiting s) (x : Step) {m : MoveRequest}
    (raise : m = .raiseToTop ∨ ∃ d, m = .raiseTo d) : Waiting (ask x m s).state := by
  have parked : (s.setStep x).cable.state = .parked := h.2.2
  have kept : (ask x m s).state = s.setStep x := by
    unfold ask takeMovement
    rcases raise with rfl | ⟨d, rfl⟩
    · simp only [parked]
      split <;> rfl
    · simp only [parked]
      split <;> rfl
  rw [kept]
  exact ⟨carriageLaw_congr h.1 rfl, h.2.1, h.2.2⟩

theorem Waiting.stow {s : State} (h : Waiting s) : Waiting (stow s).state := h.raises _ (.inl rfl)

theorem Waiting.placeNext {s : State} (h : Waiting s) : Waiting (placeNext s).state := by
  unfold Machine.placeNext
  split
  · split
    · exact h.raises _ (.inr ⟨_, rfl⟩)
    · exact h.stow
  · exact h.stow

theorem Waiting.recordPoint {s : State} (h : Waiting s) (d : Dwell) : Waiting (recordPoint d s).state := by
  unfold Machine.recordPoint
  dsimp only
  split
  · exact (h.updateEntry _).stow
  · split
    · split
      · exact (h.updateEntry _).placeNext
      · exact ((h.updateEntry _).updateEntry _).stow
    · exact (h.updateEntry _).stow

theorem CarriageLaws.dwellExpiry {s : State} (h : CarriageLaws s) : CarriageLaws (dwellExpiry s) := by
  unfold Machine.dwellExpiry
  split
  · next d hd =>
    by_cases armed : s.run.state = .armed
    · have ended : Waiting (s.setGauging { s.gauging with dwell := none }) :=
        ⟨carriageLaw_congr h.1 rfl, armed, h.2 armed⟩
      have recorded := ended.recordPoint d
      rw [deliver_armed recorded.2.1]
      exact recorded.laws
    · have ended : Underway (s.setGauging { s.gauging with dwell := none }) := ⟨carriageLaw_congr h.1 rfl, armed⟩
      exact (ended.recordPoint d).deliver.laws
  · exact h

theorem CarriageLaws.meterPulse {s : State} (h : CarriageLaws s) : CarriageLaws (meterPulse s) := by
  unfold Machine.meterPulse
  split
  · exact h.congr rfl rfl
  · exact h

theorem CarriageLaws.waitExpiry {s : State} (h : CarriageLaws s) : CarriageLaws (waitExpiry s) := by
  unfold Machine.waitExpiry
  split
  · exact (Underway.endRun h.1 (fun e => by cases e)).laws
  · exact h

theorem CarriageLaws.ofPutChannel {s t : State} (h : CarriageLaws s) (i : ChannelNumber)
    (e : t = s ∨ ∃ c, t = s.putChannel i c) : CarriageLaws t := by
  rcases e with rfl | ⟨c, rfl⟩
  · exact h
  · exact h.putChannel i c

theorem CarriageLaws.adoptionCompletion {s : State} (h : CarriageLaws s) : CarriageLaws (adoptionCompletion s) := by
  unfold Machine.adoptionCompletion
  split
  · exact h
  · split <;> exact h.congr rfl rfl

theorem CarriageLaws.patternPhaseEnd {s : State} (h : CarriageLaws s) : CarriageLaws (patternPhaseEnd s) := by
  obtain ⟨p, n, e⟩ := patternPhaseEnd_eq s
  rw [e]
  exact h.congr rfl rfl

theorem carriageLaws_kept (i : Instr) (s t : State) (h : CarriageLaws s) (he : exec i s = .next t) : CarriageLaws t :=
  exec_preserves CarriageLaws (fun s h => h.congr (by simp) (by simp [State.run]))
    (fun s h => h.congr (by simp) (by simp [State.run]))
    (fun _ _ h => h.congr rfl rfl) (fun _ h => h.congr rfl rfl) (fun n _ h => h.fetch n)
    (fun r p _ _ h => h.owner r p) (fun pin s _ => takeReset_laws pin s)
    (fun i e _ h => h.ofPutChannel i (quadratureChange_puts i e _)) (fun i e _ h => h.ofPutChannel i (markEdge_puts i e _)) (fun i _ h => h.ofPutChannel i (frequencyPulse_puts i _))
    (fun i _ h => h.ofPutChannel i (gateCompletion_puts i _)) (fun i _ h => h.ofPutChannel i (settlingTimerExpiry_puts i _)) (fun _ h => h.interval)
    (fun _ h => h.congr rfl rfl) (fun _ h => h.adoptionCompletion) (fun _ h => h.second)
    (fun _ h => h.deliver (drivePeriodBoundary_step _)) (fun e _ h => h.deliver (traverseCountChange_step e _))
    (fun e _ h => h.deliver (depthCountChange_step e _)) (fun c v _ h => h.deliver (contactChange_step c v _))
    (fun d _ h => h.deliver (jamExpiry_step d _)) (fun _ h => h.meterPulse) (fun _ h => h.dwellExpiry)
    (fun _ h => h.waitExpiry) (fun _ h => h.patternPhaseEnd) i s t h he

end Sys2Proof.Machine

open Sys2Proof.Machine

/-- Settles O9: an operation of the cableway keeps the carriage lawful and moves nothing of a carriage at rest; an
operation of a run that is not Armed keeps it lawful and arms no run; an Armed run moves nothing. -/
theorem stepKeepsTheCarriageLaw : Obligations.StepKeepsTheCarriageLaw := fun s t law armed hs =>
  step_preserves CarriageLaws (fun _ _ h => h.congr rfl rfl) carriageLaws_kept s t ⟨law, armed⟩ hs

end

section
/-! The queue and RESET (R190). -/

namespace Sys2Proof.Machine

theorem takeReset_clock (pin : ResetPin) (s : State) : (takeReset pin s).clock = 0 := by cases pin <;> rfl

theorem takeReset_gauging (pin : ResetPin) (s : State) : (takeReset pin s).gauging = GaugingUnit.reset := by
  cases pin <;> rfl

theorem takeReset_pending (pin : ResetPin) (s : State) : (takeReset pin s).pending = s.pending := by cases pin <;> rfl

theorem takeReset_resetHeld (pin : ResetPin) (s : State) : (takeReset pin s).resetHeld = decide (pin = .low) := by
  cases pin <;> rfl

/-- R190: the pins that a RESET finds: those of its rise, or while the pin is low those that stood before. -/
def pinsFound (pin : ResetPin) (s : State) : ResetPins :=
  match pin with
  | .high pins => pins
  | .low => s.pinsHeld

theorem takeReset_port (pin : ResetPin) (s : State) : (takeReset pin s).port =
    { unitAddress := (pinsFound pin s).unitAddress, cablewayFitted := (pinsFound pin s).cablewayFitted, slot := none,
      attention := 0x001, mask := 0xFFD, cursor := { table := .draft, index := 0, fields := [] },
      sdo := .highImpedance, ignoring := decide ((pinsFound pin s).select = .low) } := by
  cases pin <;> rfl

theorem takeReset_contacts (pin : ResetPin) (s : State) :
    (takeReset pin s).cable = Cableway.reset (pinsFound pin s).contacts := by
  cases pin <;> rfl

/-- R190: each channel of a reset is as the table gives it, with the mark line level that was found. -/
theorem takeReset_channel (pin : ResetPin) (s : State) (i : ChannelNumber) :
    (takeReset pin s).channels.get i = Channel.reset ((pinsFound pin s).marks.get i) := by
  cases pin <;> exact Vector.getElem_ofFn i.isLt

theorem takeReset_settings_read (pin : ResetPin) (s : State) (x : Setting) :
    (takeReset pin s).settings.read x = x.default := by
  rw [takeReset_settings, Settings.read_defaults]

theorem reset_vote (i : ChannelNumber) : StageBlock.reset.votes.get i =
    { standing := if i = 0 then .candidate else .excluded, disagree := 0, agree := 0, watch := none } := by
  revert i
  decide

theorem reset_band (i : Fin Config.shiftBands) : RatingStore.reset.bands.get i = none := by
  revert i
  decide

theorem reset_rule (i : Fin Config.rules) : WarningUnit.reset.rules.get i = none := by
  revert i
  decide

/-- R190: while the pin is held low every command but RESET changes nothing. -/
theorem exec_held {c : Instr} {s : State} (held : s.resetHeld = true) (h : ∀ pin, c ≠ .reset pin) :
    exec c s = .next s := by
  cases c with
  | reset pin => exact absurd rfl (h pin)
  | ignoredSelectPeriod _ | frameError _ | overrun _ | unknownRequest _ _ | fetchFrame _ | identify _
  | readAttention _ | setAttentionMask _ | setClock _ | readClock _ | writeSettings _ | readSettings _
  | readStation _ | restart _ | configureChannel _ | setChannelStage _ | readChannel _ | setVote _ | setCursor _
  | writeFields _ | readEntries _ | retirePoint _ | copyRating _ | adoptRating _ | lookup _ | defineShift _
  | retireShift _ | readShifts _ | retireVertical _ | homeCarriage _ | clearFault _ | setMeter _ | startRun _
  | abortRun _ | readRun _ | acceptGauging _ | defineRule _ | armRule _ | disarmRule _ | acknowledge _
  | retireRule _ | readRule _ => exact onSelectPeriod_held _ held
  | quadratureChange _ _ | markEdge _ _ | frequencyPulse _ | gateCompletion _ | settlingTimerExpiry _
  | stageIntervalExpiry | rampExpiry | adoptionCompletion | clockSecond | drivePeriodBoundary
  | traverseCountChange _ | depthCountChange _ | contactChange _ _ | jam _ | meterPulse | dwellExpiry | waitExpiry
  | patternPhaseEnd => exact unlessHeld_held _ held

theorem takeReset_reset : takeReset (.high ResetPins.atReset) State.reset = State.reset := rfl

end Sys2Proof.Machine

open Sys2Proof.Machine

/-- Settles O1: `step` at a queue that is not empty. -/
theorem stepTakesTheFrontCommand : Obligations.StepTakesTheFrontCommand := by
  unfold Obligations.StepTakesTheFrontCommand
  intro c rest s queued
  unfold step
  rw [queued]
  rfl

/-- Settles O3: each record of `takeReset` is the Reset record, and every other command is given up while the pin is
held low. -/
theorem resetGivesEveryResetValue : Obligations.ResetGivesEveryResetValue := by
  refine ⟨fun pin s => ⟨takeReset pin s, rfl, ?_⟩, fun c s held notReset => exec_held held notReset, ?_⟩
  · have found : (match pin with
      | .high pins => pins
      | .low => { unitAddress := s.port.unitAddress, cablewayFitted := s.port.cablewayFitted,
                  contacts := s.cable.contacts, marks := Vector.ofFn fun i => (s.channels.get i).markLine,
                  select := .high }) = pinsFound pin s := by cases pin <;> rfl
    intro pins
    have hpins : pins = pinsFound pin s := found
    rw [hpins, takeReset_gauging, takeReset_contacts, takeReset_stage, takeReset_rating, takeReset_warning]
    exact ⟨takeReset_resetHeld pin s, takeReset_port pin s, takeReset_clock pin s, takeReset_settings_read pin s,
      takeReset_channel pin s, rfl, rfl, rfl, reset_vote, rfl, rfl, rfl, rfl, rfl, reset_band, rfl,
      takeReset_verticals pin s, rfl, rfl, rfl, rfl, rfl, rfl, rfl, rfl, rfl, rfl, rfl, rfl, rfl, rfl, rfl, rfl, rfl,
      reset_rule, rfl, rfl, rfl, rfl, rfl, rfl, takeReset_pending pin s⟩
  · exact congrArg _ takeReset_reset

/-- Settles O4: the state after reset is what the rise of the pin gives, and that satisfies every law. -/
theorem resetStateIsLawful : Obligations.ResetStateIsLawful := by
  obtain ⟨contacts, cable⟩ := takeReset_cable (.high ResetPins.atReset) State.reset
  have laws := takeReset_laws (.high ResetPins.atReset) State.reset
  have channels := takeReset_channelsLaw (.high ResetPins.atReset) State.reset
  have port := takeReset_portLaw (.high ResetPins.atReset) State.reset
  rw [takeReset_reset] at laws channels port
  obtain ⟨effects, phase⟩ := reset_effectsLaw (s := State.reset) rfl
  refine ⟨(nofun), fun _ => ⟨by decide, by decide⟩, fun _ => ⟨rfl, rfl, rfl, rfl⟩, (nofun), laws.1,
    laws.2, effects, phase, settingsLaw_defaults, bandsLaw_empty _, ⟨by decide, List.Pairwise.nil⟩, .inl rfl,
    cursorLaw_reset, ⟨by decide, List.Pairwise.nil, fun _ h => by cases h⟩, channels, reset_voteLaw rfl,
    ⟨by decide, by decide⟩, port⟩

end

section
/-! Select periods, frames, and the requests taken into an empty slot (R170 to R178). -/

namespace Sys2Proof.Machine

/-! ### A request taken into an empty slot -/

/-- The part takes the next request: it is not held in Reset, ignores no select period, and its slot is empty. -/
structure Listens (s : State) : Prop where
  running : s.resetHeld = false
  heard : s.port.ignoring = false
  empty : s.port.slot = none

namespace Listens

variable {s t : State} {p body : List Byte}

theorem exec_taken (l : Listens s) (r : RequestName) (hp : p.length ≤ 128) {x : Taken} (owned : owner r p s = x) :
    exec (Instr.ofRequest r p) s = .next (x.state.fillSlot (x.reply.answer r.code)) :=
  owned ▸ exec_request_empty (Instr.ofRequest r p) r p s (request_ofRequest r p) l.running l.heard l.empty hp

theorem exec_done (l : Listens s) (r : RequestName) (hp : p.length ≤ 128) (owned : owner r p s = done t body) :
    exec (Instr.ofRequest r p) s = .next (t.answered .done r.code body) :=
  l.exec_taken r hp owned

theorem exec_accepted (l : Listens s) (r : RequestName) (hp : p.length ≤ 128)
    (owned : owner r p s = accepted t body) :
    exec (Instr.ofRequest r p) s = .next (t.answered .accepted r.code body) :=
  l.exec_taken r hp owned

theorem exec_refused (l : Listens s) (r : RequestName) (hp : p.length ≤ 128) {why : Reject} {detail : Nat}
    (owned : owner r p s = refused t why detail) :
    exec (Instr.ofRequest r p) s = .next (t.answered .refused r.code [BitVec.ofNat 8 why.code, BitVec.ofNat 8 detail]) := by
  have e : be1 (why.code : Int) ++ be1 (detail : Int) = [BitVec.ofNat 8 why.code, BitVec.ofNat 8 detail] := by
    simp [be1]
  rw [← e]
  exact l.exec_taken r hp owned

theorem exec_badField (l : Listens s) (r : RequestName) (hp : p.length ≤ 128) {k : Nat}
    (owned : owner r p s = badField s k) :
    exec (Instr.ofRequest r p) s = .next (s.answered .refused r.code [3, BitVec.ofNat 8 k]) :=
  l.exec_refused r hp owned

end Listens

/-! ### The length of a request (R173, R186) -/

/-- R173, R186: the lengths that the forms of a request have. -/
def RequestName.Fits (r : RequestName) (n : Nat) : Prop :=
  match r with
  | .identify | .readAttention | .readClock | .readStation | .restart | .copyRating | .readShifts
  | .homeCarriage | .clearFault | .abortRun => n = 0
  | .setAttentionMask | .readRule => n = 0 ∨ n = 4
  | .setClock | .readChannel | .readEntries | .retirePoint | .retireShift | .retireVertical | .acceptGauging
  | .armRule | .disarmRule | .acknowledge | .retireRule => n = 4
  | .setVote | .setCursor => n = 0 ∨ n = 8
  | .setChannelStage | .lookup | .readRun => n = 8
  | .adoptRating => n = 12
  | .startRun => n = 4 ∨ n = 12
  | .setMeter => n = 0 ∨ n = 16
  | .defineShift => n = 16
  | .configureChannel => n = 24
  | .defineRule => n = 40
  | .writeSettings => 8 ≤ n ∧ n ≤ 64 ∧ n % 8 = 0
  | .readSettings => n ≤ 64 ∧ n % 4 = 0
  | .writeFields => True

theorem bare_of_length {p : List Byte} (h : p.length ≠ 0) (s : State) (act : Taken) : bare p s act = badField s 0 := by
  cases p with
  | nil => exact absurd rfl h
  | cons b bs => rfl

theorem onRuleSlot_of_length {p : List Byte} (h : p.length ≠ 4) (s : State) (act : Nat → Option Rule → Taken) :
    onRuleSlot p s act = badField s 0 := by
  unfold onRuleSlot
  split
  · next e => exact absurd (readWords_length e) h
  · rfl

theorem pairsOf_length {ws : List Word} {ps : List (Int × Int)} (h : pairsOf ws = some ps) : ws.length = 2 * ps.length := by
  induction ws using pairsOf.induct generalizing ps with
  | case1 => cases h; rfl
  | case2 => cases h
  | case3 a b rest ih =>
    rw [pairsOf, Option.map_eq_some_iff] at h
    obtain ⟨qs, hq, rfl⟩ := h
    simp only [List.length_cons, ih hq]
    omega

theorem settingPairs_length {p : List Byte} {ps : List (Int × Int)} (h : settingPairs p = some ps) :
    p.length = 8 * ps.length ∧ 1 ≤ ps.length ∧ ps.length ≤ 8 := by
  unfold settingPairs at h
  split at h
  · cases h
  · next qs hq =>
    split at h
    · next few =>
      cases h
      obtain ⟨ws, hw, hq⟩ := Option.bind_eq_some_iff.mp hq
      exact ⟨by rw [readWords_length hw, pairsOf_length hq]; omega, few⟩
    · cases h

/-- R173: a length that fits no form of a request is BadField at 0, before any other check. -/
theorem owner_of_length {r : RequestName} {p : List Byte} (h : ¬ r.Fits p.length) (s : State) :
    owner r p s = badField s 0 := by
  have whole : ∀ {ws : List Word}, readWords p = some ws → p.length = 4 * ws.length := readWords_length
  cases r with
  | identify | readAttention | readClock | readStation | restart => exact bare_of_length h s _
  | copyRating | readShifts | homeCarriage | clearFault | abortRun =>
    cases p with
    | nil => exact absurd rfl h
    | cons b bs => rfl
  | armRule =>
    show armRule p s = _
    unfold armRule
    exact onRuleSlot_of_length h s _
  | disarmRule =>
    show disarmRule p s = _
    unfold disarmRule
    exact onRuleSlot_of_length h s _
  | acknowledge =>
    show acknowledge p s = _
    unfold acknowledge
    exact onRuleSlot_of_length h s _
  | retireRule =>
    show retireRule p s = _
    unfold retireRule
    exact onRuleSlot_of_length h s _
  | readRule =>
    cases p with
    | nil => exact absurd (.inl rfl) h
    | cons b bs =>
      show readRule (b :: bs) s = _
      unfold readRule
      exact onRuleSlot_of_length (fun e => h (.inr e)) s _
  | setClock =>
    show setClock p s = _
    unfold setClock
    split
    · next e => exact absurd (whole e) h
    · rfl
  | readChannel =>
    show readChannel p s = _
    unfold readChannel
    split
    · next e => exact absurd (whole e) h
    · rfl
  | readEntries =>
    show readEntries p s = _
    unfold readEntries
    split
    · next e => exact absurd (whole e) h
    · rfl
  | retirePoint =>
    show retirePoint p s = _
    unfold retirePoint
    split
    · next e => exact absurd (whole e) h
    · rfl
  | retireShift =>
    show retireShift p s = _
    unfold retireShift
    split
    · next e => exact absurd (whole e) h
    · rfl
  | retireVertical =>
    show retireVertical p s = _
    unfold retireVertical
    split
    · next e => exact absurd (whole e) h
    · rfl
  | acceptGauging =>
    show acceptGauging p s = _
    unfold acceptGauging
    split
    · next e => exact absurd (whole e) h
    · rfl
  | setChannelStage =>
    show setChannelStage p s = _
    unfold setChannelStage
    split
    · next e => exact absurd (whole e) h
    · rfl
  | lookup =>
    show lookup p s = _
    unfold lookup
    split
    · next e => exact absurd (whole e) h
    · rfl
  | readRun =>
    show readRun p s = _
    unfold readRun
    split
    · next e => exact absurd (whole e) h
    · rfl
  | adoptRating =>
    show adoptRating p s = _
    unfold adoptRating
    split
    · next e => exact absurd (whole e) h
    · rfl
  | defineShift =>
    show defineShift p s = _
    unfold defineShift
    split
    · next e => exact absurd (whole e) h
    · rfl
  | configureChannel =>
    show configureChannel p s = _
    unfold configureChannel
    split
    · next e => exact absurd (whole e) h
    · rfl
  | defineRule =>
    show defineRule p s = _
    unfold defineRule
    split
    · next e => exact absurd (whole e) h
    · rfl
  | setAttentionMask =>
    show setAttentionMask p s = _
    unfold setAttentionMask
    split
    · next e => exact absurd (.inl (whole e)) h
    · next e => exact absurd (.inr (whole e)) h
    · rfl
  | setVote =>
    show setVote p s = _
    unfold setVote
    split
    · next e => exact absurd (.inl (whole e)) h
    · next e => exact absurd (.inr (whole e)) h
    · rfl
  | setCursor =>
    show setCursor p s = _
    unfold setCursor
    split
    · next e => exact absurd (.inl (whole e)) h
    · next e => exact absurd (.inr (whole e)) h
    · rfl
  | setMeter =>
    show setMeter p s = _
    unfold setMeter
    split
    · next e => exact absurd (.inl (whole e)) h
    · next e => exact absurd (.inr (whole e)) h
    · rfl
  | startRun =>
    have condition : startConditionOf p = .error 0 := by
      unfold startConditionOf
      split
      · next e => exact absurd (.inl (whole e)) h
      · next e => exact absurd (.inr (whole e)) h
      · rfl
    show startRun p s = _
    unfold startRun
    rw [condition]
  | writeSettings =>
    show writeSettings p s = _
    unfold writeSettings
    split
    · rfl
    · next ps hps =>
      obtain ⟨length, few, many⟩ := settingPairs_length hps
      exact absurd (show _ ∧ _ ∧ _ by omega) h
  | readSettings =>
    show readSettings p s = _
    unfold readSettings
    split
    · next e => exact absurd (show _ ∧ _ by rw [whole e]; decide) h
    · next e =>
      have length := whole e
      rw [if_pos]
      by_contra few
      exact h ⟨by omega, by omega⟩
    · rfl
  | writeFields => exact absurd trivial h

/-- R173: an owner but WRITE FIELDS refuses changing nothing, or carries the request out. -/
theorem owner_turned_or (r : RequestName) (hr : r ≠ .writeFields) (p : List Byte) (s : State) :
    Turned (owner r p s) s ∨ ∃ t body, owner r p s = done t body ∨ owner r p s = accepted t body := by
  have answers : ∀ {x : Taken}, Answers x s → ∃ t body, x = done t body ∨ x = accepted t body :=
    fun ⟨body, e⟩ => ⟨s, body, .inl e⟩
  cases r with
  | identify => exact (identify_cases p s).imp_right answers
  | readAttention => exact (readAttention_cases p s).imp_right fun ⟨_, e⟩ => ⟨_, _, .inl e⟩
  | setAttentionMask =>
    exact (setAttentionMask_cases p s).imp_right fun k => k.elim answers fun ⟨_, _, _, _, e⟩ => ⟨_, _, .inl e⟩
  | setClock => exact (setClock_cases p s).imp_right fun ⟨_, _, e⟩ => ⟨_, _, .inl e⟩
  | readClock => exact (readClock_cases p s).imp_right answers
  | writeSettings => exact (writeSettings_cases p s).imp_right fun ⟨_, _, _, _, _, e⟩ => ⟨_, _, .inl e⟩
  | readSettings => exact (readSettings_cases p s).imp_right answers
  | readStation => exact (readStation_cases p s).imp_right answers
  | restart => exact (restart_cases p s).imp_right fun ⟨_, e⟩ => ⟨_, _, .inl e⟩
  | configureChannel => exact (configureChannel_cases p s).imp_right fun ⟨_, _, e, _⟩ => ⟨_, _, .inl e⟩
  | setChannelStage => exact (setChannelStage_cases p s).imp_right fun ⟨_, _, _, _, e⟩ => ⟨_, _, .inl e⟩
  | readChannel => exact (readChannel_cases p s).imp_right answers
  | setVote => exact (setVote_cases p s).imp_right fun k => k.elim answers fun ⟨_, _, _, e⟩ => ⟨_, _, .inl e⟩
  | setCursor => exact (setCursor_cases p s).imp_right fun k => k.elim answers fun ⟨_, _, _, _, e⟩ => ⟨_, _, .inl e⟩
  | writeFields => exact absurd rfl hr
  | readEntries => exact (readEntries_cases p s).imp_right fun ⟨_, _, _, e⟩ => ⟨_, _, .inl e⟩
  | retirePoint => exact (retirePoint_cases p s).imp_right fun ⟨_, _, e⟩ => ⟨_, _, .inl e⟩
  | copyRating => exact (copyRating_cases p s).imp_right fun ⟨_, e⟩ => ⟨_, _, .inl e⟩
  | adoptRating => exact (adoptRating_cases p s).imp_right fun ⟨_, e⟩ => ⟨_, _, .inr e⟩
  | lookup => exact (lookup_cases p s).imp_right answers
  | defineShift => exact (defineShift_cases p s).imp_right fun ⟨_, _, _, _, _, _, _, _, _, e⟩ => ⟨_, _, .inl e⟩
  | retireShift => exact (retireShift_cases p s).imp_right fun ⟨_, _, _, _, _, e⟩ => ⟨_, _, .inl e⟩
  | readShifts => exact (readShifts_cases p s).imp_right answers
  | retireVertical => exact (retireVertical_cases p s).imp_right fun ⟨_, _, _, _, e⟩ => ⟨_, _, .inl e⟩
  | homeCarriage => exact (homeCarriage_cases p s).imp_right fun ⟨_, _, _, e⟩ => ⟨_, _, .inr e⟩
  | clearFault => exact (clearFault_cases p s).imp_right fun ⟨_, e⟩ => ⟨_, _, .inl e⟩
  | setMeter => exact (setMeter_cases p s).imp_right fun k => k.elim answers fun ⟨_, _, _, e⟩ => ⟨_, _, .inl e⟩
  | startRun => exact (startRun_cases p s).imp_right fun ⟨_, _, _, _, _, e⟩ => ⟨_, _, .inr e⟩
  | abortRun =>
    exact (abortRunRequest_cases p s).imp_right fun k => k.elim (fun ⟨_, e⟩ => ⟨_, _, .inl e⟩) fun ⟨_, e⟩ =>
      ⟨_, _, .inl e⟩
  | readRun => exact (readRun_cases p s).imp_right answers
  | acceptGauging => exact (acceptGauging_cases p s).imp_right fun ⟨_, _, _, _, _, _, _, e⟩ => ⟨_, _, .inl e⟩
  | defineRule => exact (defineRule_cases p s).imp_right fun ⟨_, _, _, _, _, _, e⟩ => ⟨_, _, .inl e⟩
  | armRule => exact (armRule_cases p s).imp_right fun ⟨_, _, _, _, _, _, e⟩ => ⟨_, _, .inl e⟩
  | disarmRule => exact (disarmRule_cases p s).imp_right fun ⟨_, _, _, _, _, _, e⟩ => ⟨_, _, .inl e⟩
  | acknowledge => exact (acknowledge_cases p s).imp_right fun ⟨_, _, _, _, _, _, _, e⟩ => ⟨_, _, .inl e⟩
  | retireRule => exact (retireRule_cases p s).imp_right fun ⟨_, _, _, _, _, e⟩ => ⟨_, _, .inl e⟩
  | readRule => exact (readRule_cases p s).imp_right answers

theorem refused_answer_length (why : Reject) (detail : Nat) (code : Byte) :
    ((Reply.refused why detail).answer code).body.length = 2 := rfl

/-! ### The bytes of a select period (R170, R171) -/

theorem byte_of_bits (b : Byte) : BitVec.ofNat 8 (flagBits [b.getLsbD 0, b.getLsbD 1, b.getLsbD 2, b.getLsbD 3,
    b.getLsbD 4, b.getLsbD 5, b.getLsbD 6, b.getLsbD 7]) = b := by
  revert b
  decide +kernel

theorem takeBytes_short {tail : List Bool} (h : tail.length < 8) : takeBytes tail = [] := by
  unfold takeBytes
  split
  · simp only [List.length_cons] at h
    omega
  · rfl

/-- The whole bytes of a select period, whatever bits end it. -/
theorem takeBytes_bitsOf (bytes : List Byte) {tail : List Bool} (h : tail.length < 8) :
    takeBytes (bitsOf bytes ++ tail) = bytes := by
  induction bytes with
  | nil => exact takeBytes_short h
  | cons b bytes ih =>
    show BitVec.ofNat 8 (flagBits _) :: takeBytes (bitsOf bytes ++ tail) = _
    rw [ih, byte_of_bits]

theorem bitsOf_length (bytes : List Byte) : (bitsOf bytes).length = 8 * bytes.length := by
  induction bytes with
  | nil => rfl
  | cons b bytes ih =>
    show (bitsOf bytes).length + 8 = _
    rw [ih, List.length_cons]
    omega

/-- R171: the address byte that opens a request frame. -/
theorem requestAddress (unit : BitVec 3) :
    (unit ++ (0 : BitVec 5)).extractLsb' 5 3 = unit ∧ (unit ++ (0 : BitVec 5)).extractLsb' 0 4 = 0 ∧
      (unit ++ (0 : BitVec 5)).getLsbD 4 = false := by
  revert unit
  decide

theorem selectPeriod_elsewhere {bytes : List Byte} {tail : List Bool} {s : State} (h : tail.length < 8)
    (away : ∀ a ∈ bytes.head?, a.extractLsb' 5 3 ≠ s.port.unitAddress ∨ a.extractLsb' 0 4 ≠ 0) :
    selectPeriod (bitsOf bytes ++ tail) s = s.undriven := by
  unfold selectPeriod
  rw [takeBytes_bitsOf bytes h]
  cases bytes with
  | nil => rfl
  | cons a rest => exact if_pos (away a rfl)

/-- R171: a period that opens a request frame to the part is that frame. -/
theorem selectPeriod_request (rest : List Byte) {tail : List Bool} (s : State) (h : tail.length < 8) :
    selectPeriod (bitsOf ((s.port.unitAddress ++ (0 : BitVec 5)) :: rest) ++ tail) s =
      requestFrame (decide (tail = [])) ((s.port.unitAddress ++ (0 : BitVec 5)) :: rest) s := by
  obtain ⟨unit, zeros, request⟩ := requestAddress s.port.unitAddress
  have whole : ((bitsOf ((s.port.unitAddress ++ (0 : BitVec 5)) :: rest) ++ tail).length % 8 == 0) =
      decide (tail = []) := by
    rw [List.length_append, bitsOf_length, Nat.mul_add_mod, Nat.mod_eq_of_lt h]
    cases tail <;> simp
  unfold selectPeriod
  rw [takeBytes_bitsOf _ h, whole]
  dsimp only
  rw [unit, zeros, request, if_neg (by simp), if_neg (by simp)]

theorem requestFrame_malformed {whole : Bool} {bytes : List Byte} {s : State} (empty : s.port.slot = none)
    (h : wellFormedFrame whole bytes = false) :
    requestFrame whole bytes s = s.answered .refused (bytes.getD 1 0) [1, 0] := by
  unfold requestFrame
  rw [empty, h]
  rfl

theorem requestFrame_occupied {whole : Bool} {bytes : List Byte} {s : State} (occupied : s.port.slot.isSome = true) :
    requestFrame whole bytes s = s.undriven.raise .overrun := if_pos occupied

theorem foldr_add_append (init : Byte) (xs : List Byte) :
    xs.foldr (· + ·) init = xs.foldr (· + ·) 0 + init := by
  induction xs with
  | nil => exact (BitVec.zero_add init).symm
  | cons x xs ih => rw [List.foldr_cons, List.foldr_cons, ih, BitVec.add_assoc]

/-- R171: the check byte makes the bytes of a frame sum to 0. -/
theorem byteSum_frameBytes (unit : BitVec 3) (code : Byte) (params : List Byte) :
    byteSum (frameBytes unit code params) = 0 := by
  have cancels : ∀ x : Byte, x + (0 - x + 0) = 0 := fun x => by bv_omega
  unfold byteSum frameBytes
  dsimp only
  rw [List.foldr_append, foldr_add_append]
  exact cancels _

theorem frameBytes_wellFormed (unit : BitVec 3) (code : Byte) {params : List Byte} (h : params.length ≤ 128) :
    wellFormedFrame true (frameBytes unit code params) = true := by
  have length : (frameBytes unit code params).length = params.length + 4 := by
    unfold frameBytes
    simp
  have stated : ((frameBytes unit code params).getD 2 0).toNat = params.length := by
    show (BitVec.ofNat 8 params.length).toNat = _
    rw [BitVec.toNat_ofNat]
    omega
  unfold wellFormedFrame
  rw [stated, length, byteSum_frameBytes]
  simp [h]

theorem selectPeriod_frame (r : RequestName) {params : List Byte} (s : State) (h : params.length ≤ 128) :
    selectPeriod (bitsOf (frameBytes s.port.unitAddress r.code params)) s = takeRequest r.code params (owner r) s := by
  have stated : (BitVec.ofNat 8 params.length).toNat = params.length := by
    rw [BitVec.toNat_ofNat]
    omega
  have carried : (((frameBytes s.port.unitAddress r.code params).drop 3).take
      ((frameBytes s.port.unitAddress r.code params).getD 2 0).toNat) = params := by
    show (params ++ _).take (BitVec.ofNat 8 params.length).toNat = _
    rw [stated, List.take_left]
  have period := selectPeriod_request (frameBytes s.port.unitAddress r.code params).tail (tail := []) s (by decide)
  rw [List.append_nil] at period
  refine period.trans ?_
  show requestFrame true (frameBytes s.port.unitAddress r.code params) s = _
  unfold requestFrame
  rw [frameBytes_wellFormed _ _ h, carried]
  show (if _ then _ else takeRequest r.code params (ownerOfCode r.code) s) = _
  rw [ownerOfCode_code]
  split
  · next occupied => exact (if_pos occupied).symm
  · rfl

theorem onSelectPeriod_congr {act act' : State → State} {s : State} (h : act s = act' s) :
    onSelectPeriod act s = onSelectPeriod act' s := by
  unfold onSelectPeriod unlessHeld
  dsimp only
  rw [h]

/-! ### A fetch (R174) -/

theorem sentBytes_eq (slot : Option Answer) (n : Nat) :
    sentBytes slot n = (fetchBytes slot ++ List.replicate n 0).take n := by
  unfold sentBytes
  rw [List.take_append, List.take_replicate, Nat.min_eq_left (Nat.sub_le _ _)]

theorem fetchBytes_none_take (n : Nat) : sentBytes none n = List.replicate n 0 := by
  have zeros : fetchBytes none = List.replicate 5 0 := by decide
  rw [sentBytes_eq, zeros, List.replicate_append_replicate, List.take_replicate, Nat.min_eq_left (Nat.le_add_left _ _)]

theorem fetchBytes_length (a : Answer) : (fetchBytes (some a)).length = a.body.length + 5 := by
  simp [fetchBytes, answerBytes]

theorem removeReason_answerReady (set : BitVec 12) : removeReason set .answerReady = set &&& 0xFFD := rfl

/-! ### The port's own requests (R176 to R178) -/

theorem maskOf_some {m : BitVec 12} (h : m.getLsbD 1 = false) : maskOf (m.setWidth 32) = some m := by
  have small : (m.setWidth 32).toNat < 4096 := by
    rw [BitVec.toNat_setWidth]
    have := m.isLt
    omega
  unfold maskOf
  rw [if_pos ⟨small, by rw [BitVec.getLsbD_setWidth, show Reason.answerReady.bit = 1 from rfl, h]; rfl⟩,
    BitVec.setWidth_setWidth_of_le _ (by decide), BitVec.setWidth_eq]

theorem maskOf_none {w : Word} (h : 4096 ≤ w.toNat ∨ w.getLsbD 1 = true) : maskOf w = none := by
  unfold maskOf
  refine if_neg fun ⟨small, off⟩ => h.elim (fun big => by omega) fun on => ?_
  cases on.symm.trans off

theorem attention_emptied (set : BitVec 12) : set &&& ~~~ set = 0 := BitVec.and_not_self set

theorem identity_eq (s : State) : s.identity = [0x0B, 0x62, 0x01, 0xAE, 1, s.port.unitAddress.setWidth 8,
    if s.port.cablewayFitted = .high then 1 else 0, 4, 48, 8, 32, 16, 35] := by
  have unit : be1 (s.port.unitAddress.toNat : Int) = [s.port.unitAddress.setWidth 8] := by
    simp only [be1, BitVec.ofInt_natCast, BitVec.ofNat_toNat]
  unfold State.identity State.fitted
  rw [unit]
  cases s.port.cablewayFitted <;> rfl

end Sys2Proof.Machine


open Sys2Proof Sys2Proof.Machine

/-- Settles O17: a period that opens no request frame is undriven, a malformed frame and an unknown code are refused,
an occupied slot raises Overrun, and the period under way as Reset ended is ignored. -/
theorem periodsWithoutARequestAndOverruns : Obligations.PeriodsWithoutARequestAndOverruns := by
  refine ⟨?elsewhere, ?malformed, ?unknown, ?occupied, ?ignored⟩
  case elsewhere =>
    intro bytes tail s running heard short away
    exact (onSelectPeriod_running _ running heard).trans (congrArg _ (selectPeriod_elsewhere short away))
  case malformed =>
    intro rest tail s running heard empty short bytes bad
    refine (onSelectPeriod_running _ running heard).trans (congrArg _ ?_)
    rw [selectPeriod_request rest s short]
    refine requestFrame_malformed empty ?_
    rw [Bool.eq_false_iff]
    intro formed
    simp only [wellFormedFrame, byteSum, Bool.and_eq_true, decide_eq_true_eq, beq_iff_eq] at formed
    obtain ⟨⟨⟨⟨whole, enough⟩, fits⟩, exact⟩, sum⟩ := formed
    rcases bad with h | h | h | h | h
    · exact h whole
    · exact absurd enough (Nat.not_le.mpr h)
    · exact absurd fits (Nat.not_le.mpr h)
    · exact h exact
    · exact h sum
  case unknown =>
    intro code params s running heard empty fits noRequest
    have none : RequestName.ofCode code = none := by
      refine List.find?_eq_none.mpr fun r _ => ?_
      simpa using noRequest r
    have taken : ownerOfCode code params s = refused s .unknownRequest 0 := by
      unfold ownerOfCode
      rw [none]
    refine (onSelectPeriod_running _ running heard).trans (congrArg _ ?_)
    rw [takeRequest_empty _ _ _ _ empty fits, taken]
    rfl
  case occupied =>
    intro s running heard occupied t
    have taken : ∀ code params own, takeRequest code params own s = t := fun code params own => if_pos occupied
    refine ⟨fun rest tail short => ?_, fun r params => ?_, fun code params => ?_⟩
    · refine (onSelectPeriod_running _ running heard).trans (congrArg _ ?_)
      rw [selectPeriod_request rest s short]
      exact requestFrame_occupied occupied
    · rw [exec_ofRequest]
      exact (onSelectPeriod_running _ running heard).trans (congrArg _ (taken _ _ _))
    · exact (onSelectPeriod_running _ running heard).trans (congrArg _ (taken _ _ _))
  case ignored =>
    intro s running ignoring t
    have taken : ∀ act, onSelectPeriod act s = .next t := fun act => onSelectPeriod_ignored act running ignoring
    refine ⟨fun bits => ⟨taken _, taken _, taken _⟩, fun r params => ?_, fun code params => taken _, fun n => taken _⟩
    rw [exec_ofRequest]
    exact taken _

/-- Settles O18: the bytes of a frame read back give its code and parameters to the owner. -/
theorem framesCarryTheirRequests : Obligations.FramesCarryTheirRequests := by
  intro r params s fits bits
  have carried : onSelectPeriod (selectPeriod bits) s = exec (Instr.ofRequest r params) s := by
    rw [exec_ofRequest]
    exact onSelectPeriod_congr (selectPeriod_frame r s fits)
  exact ⟨carried, carried, carried⟩

/-- Settles O19: the bytes sent are those of the answer followed by zeros, and a whole fetch empties the slot. -/
theorem fetchFrameSendsTheAnswer : Obligations.FetchFrameSendsTheAnswer := by
  constructor
  · intro n a s running heard full sent bytes
    refine (onSelectPeriod_running _ running heard).trans (congrArg _ ?_)
    have driven : sentBytes s.port.slot n = (bytes ++ List.replicate n 0).take n := by rw [full, sentBytes_eq]; rfl
    have length : bytes.length = a.body.length + 5 := fetchBytes_length a
    unfold fetchFrame
    rw [driven, full, length]
    dsimp only
    split
    · rfl
    · rw [← full]
      rfl
  · intro n s running heard empty
    refine (onSelectPeriod_running _ running heard).trans (congrArg _ ?_)
    unfold fetchFrame
    rw [empty, fetchBytes_none_take]
    rfl

/-- Settles O20: an owner that refuses leaves the state, and one given a length that fits no form refuses. -/
theorem refusedRequestsChangeNothing : Obligations.RefusedRequestsChangeNothing := by
  constructor
  · intro r params s t a named running empty next full isRefused
    rw [exec_ofRequest] at next
    cases ignoring : s.port.ignoring with
    | true =>
      rw [onSelectPeriod_ignored _ running ignoring] at next
      cases next
      cases empty.symm.trans full
    | false =>
      rw [onSelectPeriod_running _ running ignoring] at next
      cases next
      rcases takeRequest_cases r.code params (owner r) s with ⟨occupied, -⟩ | ⟨-, -, e⟩ | ⟨-, -, e⟩
      · rw [empty] at occupied
        cases occupied
      · rw [e] at full ⊢
        cases full
        exact ⟨rfl, rfl, refused_answer_length _ _ _⟩
      · rw [e] at full ⊢
        rcases owner_turned_or r named params s with ⟨why, detail, turned⟩ | ⟨u, body, taken | taken⟩
        · rw [turned] at full ⊢
          cases full
          exact ⟨rfl, rfl, refused_answer_length _ _ _⟩
        · rw [taken] at full
          cases full
          cases isRefused
        · rw [taken] at full
          cases full
          cases isRefused
  · intro r params s running heard empty few n fits unfit
    have listens : Listens s := ⟨running, heard, empty⟩
    refine listens.exec_badField r few (owner_of_length (fun fit => unfit ?_) s)
    cases r <;> exact fit

/-- Settles O22: each owner's answer fills the slot. -/
theorem portRequestsAnswerAndSet : Obligations.PortRequestsAnswerAndSet := by
  intro s running heard empty
  have l : Listens s := ⟨running, heard, empty⟩
  refine ⟨?identify, ?readClock, fun count => ?setClock, ?readAttention, fun m off => ?setMask, ?readMask,
    fun w bad => ?badMask⟩
  case identify => exact l.exec_done .identify (by decide) (congrArg (done s) (identity_eq s))
  case readClock => exact l.exec_done .readClock (by decide) rfl
  case setClock =>
    refine l.exec_done .setClock (by simp) ?_
    show setClock (beWord count) s = _
    unfold setClock
    rw [readWords_beWord]
    rfl
  case readAttention =>
    refine l.exec_done .readAttention (by decide) ?_
    show done (s.setAttention (s.port.attention &&& ~~~ s.port.attention)) _ = _
    rw [attention_emptied]
    rfl
  case setMask =>
    refine l.exec_done .setAttentionMask (by simp) ?_
    show setAttentionMask (beWord (m.setWidth 32)) s = _
    unfold setAttentionMask
    rw [readWords_beWord]
    dsimp only
    rw [maskOf_some off]
    rfl
  case readMask => exact l.exec_done .setAttentionMask (by decide) rfl
  case badMask =>
    refine l.exec_badField .setAttentionMask (by simp) (k := 0) ?_
    show setAttentionMask (beWord w) s = _
    unfold setAttentionMask
    rw [readWords_beWord]
    dsimp only
    rw [maskOf_none bad]

/-- Settles O23: the clock, the timers and nothing else. -/
theorem secondMovesTheTimers : Obligations.SecondMovesTheTimers := by
  intro s running
  have channels : ∀ i, (clockSecond s).channels.get i = (s.channel i).second := fun i => Vector.getElem_ofFn i.isLt
  have jam : ∀ {δ : Type} (d : Drive δ), d.second = { d with jam := if d.on = true then d.jam + 1 else d.jam } :=
    fun d => by
      unfold Drive.second
      split <;> rfl
  refine ⟨clockSecond s, unlessHeld_running _ running, rfl, rfl, rfl, rfl, rfl, rfl, rfl, channels, rfl, rfl, ?_, rfl, ?_⟩
  · show { s.cable with traverse := s.cable.traverse.second, hoist := s.cable.hoist.second } = _
    rw [jam, jam]
  · show s.warning.second = _
    unfold WarningUnit.second
    split <;> rfl

end

section
/-! The line events (what they leave), and the level channels (chapter 2). -/

namespace Sys2Proof.Machine

/-! ### What the cableway and run events leave -/

/-- What an event of the cableway or of a run leaves, the contacts aside. -/
structure EventLeaves (s t : State) : Prop where
  clock : t.clock = s.clock
  settings : t.settings = s.settings
  channels : t.channels = s.channels
  stage : t.stage = s.stage
  rating : t.rating = s.rating
  warning : t.warning = s.warning
  freeReads : t.freeReads = s.freeReads
  pending : t.pending = s.pending
  resetHeld : t.resetHeld = s.resetHeld
  port : t.port = { s.port with attention := t.port.attention }
  verticals : t.verticals.map Vertical.fixed = s.verticals.map Vertical.fixed
  meter : t.gauging.meter = s.gauging.meter
  nextId : t.gauging.nextId = s.gauging.nextId

theorem CableFrame.leaves {s t : State} {c : Cableway} (f : CableFrame (s.setCable c) t) : EventLeaves s t :=
  ⟨f.clock, f.settings, f.channels, f.stage, f.rating, f.warning, f.freeReads, f.pending, f.resetHeld, f.port,
    f.verticals, f.meter, f.nextId⟩

/-- An event of the cableway or of a run, with the contacts it takes. -/
theorem cableEvent_frame {c : Instr} {s t : State}
    (h : c = .drivePeriodBoundary ∨ (∃ e, c = .traverseCountChange e) ∨ (∃ e, c = .depthCountChange e) ∨
      (∃ k v, c = .contactChange k v) ∨ (∃ d, c = .jam d) ∨ c = .meterPulse ∨ c = .dwellExpiry ∨ c = .waitExpiry)
    (next : exec c s = .next t) :
    ∃ x, CableFrame (s.setCable x) t ∧
      ∀ k, (∀ v, c ≠ .contactChange k v) → levelAt x.contacts k = levelAt s.cable.contacts k := by
  have same : ∀ {u}, CableFrame s u → exec c s = .next u → ∃ x, CableFrame (s.setCable x) t ∧
      ∀ k, (∀ v, c ≠ .contactChange k v) → levelAt x.contacts k = levelAt s.cable.contacts k := fun f e => by
    cases e.symm.trans next
    exact ⟨s.cable, f, fun _ _ => rfl⟩
  cases running : s.resetHeld with
  | true =>
    refine same (CableFrame.refl s) (exec_held running fun pin e => ?_)
    subst e
    simp at h
  | false =>
    rcases h with rfl | ⟨e, rfl⟩ | ⟨e, rfl⟩ | ⟨k, v, rfl⟩ | ⟨d, rfl⟩ | rfl | rfl | rfl
    · cases (unlessHeld_running _ running).symm.trans next
      exact ⟨_, (drivePeriodBoundary_frame s).trans (deliver_frame _), fun _ _ => rfl⟩
    · exact same ((traverseCountChange_frame e s).trans (deliver_frame _)) (unlessHeld_running _ running)
    · exact same ((depthCountChange_frame e s).trans (deliver_frame _)) (unlessHeld_running _ running)
    · cases (unlessHeld_running _ running).symm.trans next
      refine ⟨_, (contactChange_frame k v s).trans (deliver_frame _), fun j other => ?_⟩
      have differs : j ≠ k := fun e => other v (by rw [e])
      cases j <;> cases k <;> first | rfl | exact absurd rfl differs
    · exact same ((jamExpiry_frame d s).trans (deliver_frame _)) (unlessHeld_running _ running)
    · exact same (meterPulse_frame s) (unlessHeld_running _ running)
    · exact same (dwellExpiry_frame s) (unlessHeld_running _ running)
    · exact same (waitExpiry_frame s) (unlessHeld_running _ running)

/-! ### The setup of a channel -/

/-- The fields of a channel that CONFIGURE CHANNEL and SET CHANNEL STAGE alone write. -/
def Channel.SameSetup (c d : Channel) : Prop :=
  d.kind = c.kind ∧ d.scale = c.scale ∧ d.offset = c.offset ∧ d.mark = c.mark

theorem Channel.SameSetup.rfl {c : Channel} : c.SameSetup c := ⟨Eq.refl _, Eq.refl _, Eq.refl _, Eq.refl _⟩

theorem Channel.SameSetup.trans {c d e : Channel} (h : c.SameSetup d) (k : d.SameSetup e) : c.SameSetup e := by
  obtain ⟨hk, hs, ho, hm⟩ := h
  obtain ⟨kk, ks, ko, km⟩ := k
  exact ⟨kk.trans hk, ks.trans hs, ko.trans ho, km.trans hm⟩

theorem takeReading_setup (s : State) (c : Channel) (v : Int) : c.SameSetup (c.takeReading s v) := Channel.SameSetup.rfl

theorem followCount_setup (s : State) (c : Channel) : c.SameSetup (c.followCount s) := by
  unfold Channel.followCount
  split
  · exact takeReading_setup s c _
  · exact .rfl

theorem takeGate_setup (s : State) (c : Channel) (total : Nat) : c.SameSetup (c.takeGate s total) := by
  unfold Channel.takeGate
  dsimp only
  split <;> exact .rfl

theorem actOnGate_setup (s : State) (c : Channel) (total : Nat) : c.SameSetup (c.actOnGate s total) := by
  unfold Channel.actOnGate
  split
  · split <;> exact .rfl
  · split
    · split
      · exact .rfl
      · exact takeGate_setup s { c with settlingCount := 2 } total
    · exact takeGate_setup s c total
    · exact takeGate_setup s c total
    · exact .rfl
    · exact .rfl

/-- A channel written with what it holds changes nothing. -/
theorem putChannel_self (s : State) (i : ChannelNumber) : s.putChannel i (s.channel i) = s := by
  have same : s.channels.set i.val (s.channel i) i.isLt = s.channels := by
    unfold State.channel
    exact Vector.set_getElem_self i.isLt
  unfold State.putChannel
  rw [same]
  simp [State.raiseIf, State.setChannels]

theorem quadratureChange_setup (i : ChannelNumber) (e : QuadratureEdge) (s : State) :
    ∃ c, quadratureChange i e s = s.putChannel i c ∧ (s.channel i).SameSetup c := by
  unfold quadratureChange
  dsimp only
  split
  · exact ⟨_, rfl, followCount_setup s { s.channel i with count := _ }⟩
  · exact ⟨_, (putChannel_self s i).symm, .rfl⟩

theorem markEdge_setup (i : ChannelNumber) (e : Edge) (s : State) :
    ∃ c, markEdge i e s = s.putChannel i c ∧ (s.channel i).SameSetup c := by
  unfold markEdge
  dsimp only
  split
  · next m _ _ =>
    split
    · exact ⟨_, rfl, followCount_setup s { s.channel i with
        markLine := _, markLevel := _, count := _, lastMark := _ }⟩
    · exact ⟨_, rfl, .rfl⟩
  · exact ⟨_, rfl, .rfl⟩

theorem frequencyPulse_setup (i : ChannelNumber) (s : State) :
    ∃ c, frequencyPulse i s = s.putChannel i c ∧ (s.channel i).SameSetup c := by
  unfold frequencyPulse
  dsimp only
  split
  · exact ⟨_, rfl, .rfl⟩
  · exact ⟨_, (putChannel_self s i).symm, .rfl⟩

theorem gateCompletion_setup (i : ChannelNumber) (s : State) :
    ∃ c, gateCompletion i s = s.putChannel i c ∧ (s.channel i).SameSetup c := by
  unfold gateCompletion
  dsimp only
  split
  · exact ⟨_, rfl, actOnGate_setup s { s.channel i with lastGate := _, gate := _ } _⟩
  · exact ⟨_, (putChannel_self s i).symm, .rfl⟩

theorem settlingTimerExpiry_setup (i : ChannelNumber) (s : State) :
    ∃ c, settlingTimerExpiry i s = s.putChannel i c ∧ (s.channel i).SameSetup c := by
  unfold settlingTimerExpiry
  dsimp only
  split
  · exact ⟨_, rfl, takeReading_setup s { s.channel i with settlingTimer := none } _⟩
  · exact ⟨_, (putChannel_self s i).symm, .rfl⟩

/-- R12: an event of a channel writes that channel, its setup kept, or while the pin is held low nothing. -/
theorem channelEvent_with {act : State → State} {s : State} {i : ChannelNumber}
    (h : ∃ c, act s = s.putChannel i c ∧ (s.channel i).SameSetup c) :
    ∃ c, unlessHeld act s = .next (s.withChannel i c) ∧ (s.channel i).SameSetup c := by
  cases running : s.resetHeld with
  | true =>
    refine ⟨s.channel i, (unlessHeld_held _ running).trans (congrArg _ ?_), .rfl⟩
    rw [← putChannel_withChannel, putChannel_self]
  | false =>
    obtain ⟨c, e, setup⟩ := h
    exact ⟨c, (unlessHeld_running _ running).trans (congrArg _ (e.trans (putChannel_withChannel s i c))), setup⟩

/-! ### Values and conditions (R3, R11) -/

theorem holdReading_eq (v : Int) : holdReading v = max (-1000000) (min 1000000 v) := by
  unfold holdReading clampTo
  rw [min_comm]
  rfl

theorem judge_eq (s : State) (v : Int) : s.judge v =
    if s.settings.read .stageFloor ≤ v ∧ v ≤ s.settings.read .stageCeiling then .valid else .outOfRange := by
  unfold State.judge
  simp only [within_iff]
  rfl

theorem takeReading_eq (s : State) (c : Channel) {v w : Int} (h : v = w) : c.takeReading s v =
    { c with reading := some w, readingTime := s.clock,
             condition := if s.settings.read .stageFloor ≤ w ∧ w ≤ s.settings.read .stageCeiling then .valid
               else .outOfRange } := by
  rw [Channel.takeReading, judge_eq, h]

theorem encoderValue_eq (c : Channel) : c.encoderValue =
    max (-1000000) (min 1000000 (c.offset + roundHalfUp (c.count.toInt * c.scale) 1000)) := holdReading_eq _

theorem gateValue_eq (c : Channel) (total : Nat) : c.gateValue total =
    max (-1000000) (min 1000000 (c.offset + roundHalfUp (total * c.scale) 1000)) := holdReading_eq _

theorem followCount_shown (s : State) {c : Channel} (h : c.condition = .valid ∨ c.condition = .outOfRange) :
    c.followCount s = c.takeReading s c.encoderValue := if_pos ((showsReading_iff c).mpr h)

theorem followCount_settling (s : State) {c : Channel} (h : c.condition = .settling) : c.followCount s = c := by
  refine if_neg fun shows => ?_
  rcases (showsReading_iff c).mp shows with e | e <;> cases h.symm.trans e

theorem exec_putChannel {act : State → State} {s : State} {i : ChannelNumber} {c : Channel}
    (running : s.resetHeld = false) (e : act s = s.putChannel i c) :
    unlessHeld act s = .next (s.withChannel i c) :=
  (unlessHeld_running _ running).trans (congrArg _ (e.trans (putChannel_withChannel s i c)))

/-! ### Float encoders (R2 to R5) -/

/-- R2: the count after a quadrature change of one line. -/
theorem stepCount_quadrature (count : Word) {e : QuadratureEdge} (h : e.changed ≠ .both) :
    stepCount count (quadratureStep e) =
      if (e.changed = .lineA ∧ e.a ≠ e.b) ∨ (e.changed = .lineB ∧ e.a = e.b) then count + 1 else count - 1 := by
  unfold stepCount quadratureStep
  have down : count + BitVec.ofInt 32 (-1) = count - 1 := by
    rw [BitVec.sub_eq_add_neg]
    rfl
  cases changed : e.changed with
  | lineA =>
    by_cases same : e.a = e.b
    · simpa [same] using down
    · simp [same]
  | lineB =>
    by_cases same : e.a = e.b
    · simp [same]
    · simpa [same] using down
  | both => exact absurd changed h

theorem quadratureStep_eq_zero {e : QuadratureEdge} : quadratureStep e = 0 ↔ e.changed = .both := by
  unfold quadratureStep
  cases e.changed with
  | lineA => by_cases same : e.a = e.b <;> simp [same]
  | lineB => by_cases same : e.a = e.b <;> simp [same]
  | both => simp

theorem quadratureChange_none {i : ChannelNumber} {e : QuadratureEdge} {s : State}
    (h : (s.channel i).kind ≠ .encoder ∨ e.changed = .both) : quadratureChange i e s = s := by
  refine if_neg fun ⟨kind, moved⟩ => h.elim (absurd kind) fun both => moved (quadratureStep_eq_zero.mpr both)

theorem quadratureChange_moves {i : ChannelNumber} {e : QuadratureEdge} {s : State}
    (kind : (s.channel i).kind = .encoder) (h : e.changed ≠ .both) :
    quadratureChange i e s = s.putChannel i (Channel.followCount s
      { s.channel i with count := stepCount (s.channel i).count (quadratureStep e) }) :=
  if_pos ⟨kind, fun zero => h (quadratureStep_eq_zero.mp zero)⟩

theorem levelAfter_eq (e : Edge) : levelAfter e = if e = .rising then Level.high else .low := by
  cases e <;> rfl

theorem matchesEdge_iff (m : MarkEdge) (e : Edge) : m.matchesEdge e = true ↔
    m = .both ∨ (m = .rising ∧ e = .rising) ∨ (m = .falling ∧ e = .falling) := by
  cases m <;> cases e <;> decide

theorem markEdge_unfitted {i : ChannelNumber} {s : State} (e : Edge)
    (h : (s.channel i).kind ≠ .encoder ∨ (s.channel i).mark = none) :
    markEdge i e s = s.putChannel i { s.channel i with markLine := (if e = .rising then Level.high else .low) } := by
  unfold markEdge
  rw [levelAfter_eq]
  dsimp only
  split
  · next kind mark =>
    rcases h with h | h
    · exact absurd kind h
    · cases h.symm.trans mark
  · rfl

theorem markEdge_fitted {i : ChannelNumber} {s : State} (e : Edge) {m : Mark} (kind : (s.channel i).kind = .encoder)
    (mark : (s.channel i).mark = some m) :
    markEdge i e s =
      if m.edge.matchesEdge e ∧ (s.channel i).condition ≠ .off then s.putChannel i (Channel.markReload s
        { s.channel i with markLine := (if e = .rising then Level.high else .low), markLevel := some ((if e = .rising then Level.high else .low)) } m)
      else s.putChannel i { s.channel i with markLine := (if e = .rising then Level.high else .low), markLevel := some ((if e = .rising then Level.high else .low)) } := by
  unfold markEdge
  rw [levelAfter_eq]
  dsimp only
  rw [kind, mark]

/-! ### Timers and gates (R7 to R10) -/

theorem settlingTimerExpiry_runs {i : ChannelNumber} {s : State} {n : Nat} (h : (s.channel i).settlingTimer = some n) :
    settlingTimerExpiry i s = s.putChannel i
      (Channel.takeReading s { s.channel i with settlingTimer := none } (s.channel i).encoderValue) := by
  unfold settlingTimerExpiry
  dsimp only
  rw [h]

theorem frequencyPulse_runs {i : ChannelNumber} {s : State} {g : Gate} (kind : (s.channel i).kind = .frequency)
    (gate : (s.channel i).gate = some g) :
    frequencyPulse i s = s.putChannel i
      { s.channel i with gate := some { g with pulses := min 1000000 (g.pulses + 1) } } := by
  unfold frequencyPulse
  dsimp only
  rw [kind, gate]
  rfl

theorem gateCompletion_runs {i : ChannelNumber} {s : State} {g : Gate} (kind : (s.channel i).kind = .frequency)
    (gate : (s.channel i).gate = some g) :
    gateCompletion i s = s.putChannel i (Channel.actOnGate s
      { s.channel i with lastGate := some g.pulses, gate := some { elapsed := 0, pulses := 0 } } g.pulses) := by
  unfold gateCompletion
  dsimp only
  rw [kind, gate]

/-- R8, R9: a gate's value and condition. -/
theorem takeGate_eq (s : State) (c : Channel) {total : Nat} {v : Int} (h : c.gateValue total = v) :
    c.takeGate s total =
      { c with reading := some v, readingTime := s.clock,
               condition := if total = 1000000 then .outOfRange
                 else if s.settings.read .stageFloor ≤ v ∧ v ≤ s.settings.read .stageCeiling then .valid
                 else .outOfRange } := by
  unfold Channel.takeGate
  rw [takeReading_eq s c h]
  have most : Config.gatePulsesMax = 1000000 := rfl
  rw [most]
  dsimp only
  split <;> rfl

section
variable (s : State) {c : Channel} {total : Nat}

theorem actOnGate_settling_few (h : c.condition = .settling) (few : (total : Int) < s.setting .minimumPulses) :
    c.actOnGate s total = { c with condition := .silent, settlingCount := 0 } := by
  rw [Channel.actOnGate, if_pos few, h]

theorem actOnGate_settling_first (h : c.condition = .settling) (enough : ¬ (total : Int) < s.setting .minimumPulses)
    (first : c.settlingCount = 0) : c.actOnGate s total = { c with settlingCount := 1 } := by
  rw [Channel.actOnGate, if_neg enough, h]
  exact if_pos first

theorem actOnGate_settling_second (h : c.condition = .settling) (enough : ¬ (total : Int) < s.setting .minimumPulses)
    (second : c.settlingCount = 1) :
    c.actOnGate s total = Channel.takeGate s { c with settlingCount := 2 } total := by
  rw [Channel.actOnGate, if_neg enough, h]
  exact if_neg (by rw [second]; decide)

theorem actOnGate_reading_few (h : c.condition = .valid ∨ c.condition = .outOfRange)
    (few : (total : Int) < s.setting .minimumPulses) :
    c.actOnGate s total = { c with condition := .silent, reading := none, readingTime := s.clock } := by
  rw [Channel.actOnGate, if_pos few]
  rcases h with h | h <;> rw [h]

theorem actOnGate_reading (h : c.condition = .valid ∨ c.condition = .outOfRange)
    (enough : ¬ (total : Int) < s.setting .minimumPulses) : c.actOnGate s total = c.takeGate s total := by
  rw [Channel.actOnGate, if_neg enough]
  rcases h with h | h <;> rw [h]

theorem actOnGate_silent_few (h : c.condition = .silent) (few : (total : Int) < s.setting .minimumPulses) :
    c.actOnGate s total = c := by
  rw [Channel.actOnGate, if_pos few, h]

theorem actOnGate_silent (h : c.condition = .silent) (enough : ¬ (total : Int) < s.setting .minimumPulses) :
    c.actOnGate s total = { c with condition := .settling, settlingCount := 1 } := by
  rw [Channel.actOnGate, if_neg enough, h]

end

/-! ### CONFIGURE CHANNEL (R14, R15) -/

theorem channelOf_none {w : Word} (h : 3 < w.toNat) : channelOf w = none := dif_neg (by
  have : Config.channels = 4 := rfl
  omega)

theorem kindOf_none {w : Word} (h : 2 < w.toNat) : ChannelKind.ofCode w = none := by
  unfold ChannelKind.ofCode
  split_ifs with h0 h1 h2
  · subst h0; exact absurd h (by decide)
  · subst h1; exact absurd h (by decide)
  · subst h2; exact absurd h (by decide)
  · rfl

theorem markEdgeOf_none {w : Word} (h : 3 < w.toNat) : MarkEdge.ofCode w = none := by
  unfold MarkEdge.ofCode
  split_ifs with h0 h1 h2 h3
  · subst h0; exact absurd h (by decide)
  · subst h1; exact absurd h (by decide)
  · subst h2; exact absurd h (by decide)
  · subst h3; exact absurd h (by decide)
  · rfl

theorem markEdgeOf_code (e : MarkEdge) : MarkEdge.ofCode (BitVec.ofInt 32 e.code) = some (some e) := by
  cases e <;> decide

theorem markEdgeOf_ne_none {w : Word} (h : w ≠ 0) : MarkEdge.ofCode w ≠ some none := by
  unfold MarkEdge.ofCode
  rw [if_neg h]
  split_ifs <;> simp

/-- R14: the scale that the kinds allow. -/
def ChannelKind.scaleMost (kind : ChannelKind) : Int := if kind = .encoder then 10000 else 100000

section
variable {kind : ChannelKind} {scale offset markStage edge : Word}

theorem configureCheck_scale (h : ¬ (1 ≤ scale.toInt ∧ scale.toInt ≤ kind.scaleMost)) :
    configureCheck kind scale offset markStage edge = some 2 :=
  if_pos fun fits => h ((within_iff _ _ _).mp fits)

theorem configureCheck_of_scale (h : 1 ≤ scale.toInt ∧ scale.toInt ≤ kind.scaleMost) :
    configureCheck kind scale offset markStage edge =
      if ¬ (-1000000 ≤ offset.toInt ∧ offset.toInt ≤ 1000000) then some 3
      else if edge ≠ 0 ∧ ¬ (-2000 ≤ markStage.toInt ∧ markStage.toInt ≤ 30000) then some 4
      else match MarkEdge.ofCode edge with
        | none => some 5
        | some none => none
        | some (some _) => if kind = .frequency then some 5 else none := by
  unfold configureCheck
  unfold ChannelKind.scaleMost at h
  rw [if_neg (not_not_intro ((within_iff _ _ _).mpr h))]
  simp only [within_iff]
  rfl

end

theorem configureChannel_words {i : ChannelNumber} {w kind scale offset markStage edge : Word}
    (named : channelOf w = some i) (s : State) :
    configureChannel (paramBytes [w, kind, scale, offset, markStage, edge]) s =
      match ChannelKind.ofCode kind with
      | none => badField s 1
      | some .off => done (s.putChannel i ((s.channel i).configuredOff s)) []
      | some .encoder =>
        match configureCheck .encoder scale offset markStage edge with
        | some k => badField s k
        | none =>
          done (s.putChannel i
            ((s.channel i).configuredEncoder s scale.toInt offset.toInt (markOf markStage edge))) []
      | some .frequency =>
        match configureCheck .frequency scale offset markStage edge with
        | some k => badField s k
        | none => done (s.putChannel i ((s.channel i).configuredFrequency s scale.toInt offset.toInt)) [] := by
  unfold configureChannel
  rw [readWords_paramBytes]
  dsimp only
  rw [named] <;> rfl

/-- R14: a kind that is not Off, refused at the parameter its check names. -/
theorem configureChannel_refused {i : ChannelNumber} {w code scale offset markStage edge : Word} {kind : ChannelKind}
    {k : Nat} (named : channelOf w = some i) (s : State) (kindOf : ChannelKind.ofCode code = some kind)
    (on : kind ≠ .off) (check : configureCheck kind scale offset markStage edge = some k) :
    configureChannel (paramBytes [w, code, scale, offset, markStage, edge]) s = badField s k := by
  rw [configureChannel_words named, kindOf]
  cases kind with
  | off => exact absurd rfl on
  | encoder => dsimp only; rw [check]
  | frequency => dsimp only; rw [check]

theorem configureChannel_encoder {i : ChannelNumber} {w scale offset markStage edge : Word} (named : channelOf w = some i)
    (s : State) (check : configureCheck .encoder scale offset markStage edge = none) :
    configureChannel (paramBytes [w, 1, scale, offset, markStage, edge]) s = done (s.putChannel i
      ((s.channel i).configuredEncoder s scale.toInt offset.toInt (markOf markStage edge))) [] := by
  rw [configureChannel_words named, show ChannelKind.ofCode 1 = some .encoder from rfl]
  dsimp only
  rw [check]

theorem configureChannel_frequency {i : ChannelNumber} {w scale offset markStage edge : Word}
    (named : channelOf w = some i) (s : State)
    (check : configureCheck .frequency scale offset markStage edge = none) :
    configureChannel (paramBytes [w, 2, scale, offset, markStage, edge]) s = done (s.putChannel i
      ((s.channel i).configuredFrequency s scale.toInt offset.toInt)) [] := by
  rw [configureChannel_words named, show ChannelKind.ofCode 2 = some .frequency from rfl]
  dsimp only
  rw [check]

/-! ### SET CHANNEL STAGE (R16) -/

theorem currentTerm_eq (c : Channel) : c.currentTerm =
    roundHalfUp ((if c.kind = .frequency then ((c.lastGate.getD 0 : Nat) : Int) else c.count.toInt) * c.scale) 1000 := by
  unfold Channel.currentTerm
  cases c.kind <;> rfl

theorem setChannelStage_words {i : ChannelNumber} (stage : Word) (s : State) :
    setChannelStage (paramBytes [BitVec.ofNat 32 i.val, stage]) s =
      if ¬ (-2000 ≤ stage.toInt ∧ stage.toInt ≤ 30000) then badField s 1
      else if (s.channel i).condition ≠ .valid then refused s .wrongState 0
      else if ¬ (s.settings.read .stageFloor ≤ stage.toInt ∧ stage.toInt ≤ s.settings.read .stageCeiling) ∨
          ¬ (-1000000 ≤ stage.toInt - (s.channel i).currentTerm ∧ stage.toInt - (s.channel i).currentTerm ≤ 1000000)
        then refused s .outOfLimits 0
      else done (s.putChannel i ((s.channel i).corrected s (stage.toInt - (s.channel i).currentTerm)))
        (be4 (s.channel i).offset ++ be4 (stage.toInt - (s.channel i).currentTerm)) := by
  unfold setChannelStage
  rw [readWords_paramBytes]
  dsimp only
  rw [channelOf_ofNat]
  simp only [within_iff]
  rfl

end Sys2Proof.Machine

open Sys2Proof Sys2Proof.Machine

/-- Settles O21: an event of the cableway or of a run keeps the frame of the cableway, with the contacts it takes; an
event of a channel writes one record whose setup it keeps. -/
theorem lineEventsLeaveTheRest : Obligations.LineEventsLeaveTheRest := by
  constructor
  · intro c s t event next
    obtain ⟨x, frame, contacts⟩ := cableEvent_frame event next
    obtain ⟨clock, settings, channels, stage, rating, warning, freeReads, pending, resetHeld, port, verticals, meter,
      nextId⟩ := frame.leaves
    refine ⟨clock, settings, channels, stage, rating, warning, freeReads, pending, resetHeld, port, fun k other => ?_,
      verticals, meter, nextId⟩
    rw [frame.contacts]
    exact contacts k other
  · intro i c s event
    rcases event with ⟨e, rfl⟩ | ⟨e, rfl⟩ | rfl | rfl | rfl
    · exact channelEvent_with (quadratureChange_setup i e s)
    · exact channelEvent_with (markEdge_setup i e s)
    · exact channelEvent_with (frequencyPulse_setup i s)
    · exact channelEvent_with (gateCompletion_setup i s)
    · exact channelEvent_with (settlingTimerExpiry_setup i s)

/-- Settles O27: the six parameters in the order of the checks, then the record started afresh in its kind. -/
theorem configureStartsAChannelAfresh : Obligations.ConfigureStartsAChannelAfresh := by
  intro i scale offset markStage s running heard empty c request fresh refused scaleFits offsetFits markFits
  have l : Listens s := ⟨running, heard, empty⟩
  have named := channelOf_ofNat i
  have configured : ∀ {kind edge : Word} {k : Channel},
      configureChannel (paramBytes [BitVec.ofNat 32 i.val, kind, scale, offset, markStage, edge]) s =
        done (s.putChannel i k) [] →
      exec (request kind edge) s = .next ((s.withChannel i k).answered .done 0x10 []) := fun owned => by
    rw [← putChannel_withChannel]
    exact l.exec_done .configureChannel (by simp) owned
  have bad : ∀ {kind edge : Word} {k : Nat} {index : Byte}, index = BitVec.ofNat 8 k →
      configureChannel (paramBytes [BitVec.ofNat 32 i.val, kind, scale, offset, markStage, edge]) s = badField s k →
      refused kind edge index := fun e owned => by
    subst e
    exact l.exec_badField .configureChannel (by simp) owned
  refine ⟨fun edge => configured ?off, fun offsetOk => ⟨fun scaleOk => ⟨configured ?plain, fun markOk edge =>
    configured ?marked⟩, fun scaleOk => configured ?frequency⟩, ?noChannel, fun kind edge h => bad rfl ?noKind,
    fun edge => ⟨fun h => bad rfl ?scale1, fun h => bad rfl ?scale2⟩, ?checks⟩
  case off => rw [configureChannel_words named]; rfl
  case plain =>
    refine configureChannel_encoder named s ?_
    rw [configureCheck_of_scale scaleOk, if_neg (not_not_intro offsetOk), if_neg (fun h => h.1 rfl)]
    rfl
  case marked =>
    have e : markOf markStage (BitVec.ofInt 32 edge.code) = some { stage := markStage.toInt, edge := edge } := by
      rw [markOf, markEdgeOf_code]
    have owned := configureChannel_encoder (edge := BitVec.ofInt 32 edge.code) (markStage := markStage)
      (scale := scale) (offset := offset) named s (by
        rw [configureCheck_of_scale scaleOk, if_neg (not_not_intro offsetOk), if_neg (fun h => h.2 markOk),
          markEdgeOf_code]
        rfl)
    rw [e] at owned
    exact owned
  case frequency =>
    refine configureChannel_frequency named s ?_
    rw [configureCheck_of_scale scaleOk, if_neg (not_not_intro offsetOk), if_neg (fun h => h.1 rfl)]
    rfl
  case noChannel =>
    intro channel kind edge h
    refine l.exec_badField .configureChannel (k := 0) (by simp) ?_
    show configureChannel (paramBytes [channel, kind, scale, offset, markStage, edge]) s = _
    unfold configureChannel
    rw [readWords_paramBytes]
    dsimp only
    rw [channelOf_none h]
  case noKind => rw [configureChannel_words named, kindOf_none h]
  case scale1 => exact configureChannel_refused named s rfl (by decide) (configureCheck_scale h)
  case scale2 => exact configureChannel_refused named s rfl (by decide) (configureCheck_scale h)
  case checks =>
    intro kind edge most kinds scaleOk
    obtain ⟨k, kindOf, on, mostOf, frequency⟩ : ∃ k, ChannelKind.ofCode kind = some k ∧ k ≠ .off ∧ k.scaleMost = most ∧
        (kind = 2 → k = .frequency) := by
      rcases kinds with ⟨rfl, rfl⟩ | ⟨rfl, rfl⟩
      · exact ⟨.encoder, rfl, by decide, rfl, by decide⟩
      · exact ⟨.frequency, rfl, by decide, rfl, fun _ => rfl⟩
    have checked := configureCheck_of_scale (offset := offset) (markStage := markStage) (edge := edge)
      (show 1 ≤ scale.toInt ∧ scale.toInt ≤ k.scaleMost by rw [mostOf]; exact scaleOk)
    have refusedAt : ∀ {n : Nat} {index : Byte}, index = BitVec.ofNat 8 n →
        configureCheck k scale offset markStage edge = some n → refused kind edge index := fun e check =>
      bad e (configureChannel_refused named s kindOf on check)
    refine ⟨fun offsetBad => refusedAt rfl ?_, fun offsetOk marks markBad => refusedAt rfl ?_,
      fun offsetOk markOk edgeBad => refusedAt rfl ?_, fun offsetOk markOk marks two => refusedAt rfl ?_⟩
    · rw [checked, if_pos offsetBad]
    · rw [checked, if_neg (not_not_intro offsetOk), if_pos ⟨marks, markBad⟩]
    · rw [checked, if_neg (not_not_intro offsetOk), if_neg (fun h => h.2 markOk), markEdgeOf_none edgeBad]
    · rw [checked, if_neg (not_not_intro offsetOk), if_neg (fun h => h.2 markOk)]
      split
      · rfl
      · next h => exact absurd h (markEdgeOf_ne_none marks)
      · exact if_pos (frequency two)

/-- Settles O28: the checks in their order, then the record with the offset moved. -/
theorem setChannelStageMovesTheOffset : Obligations.SetChannelStageMovesTheOffset := by
  intro i stage s running heard empty c term offset request
  have l : Listens s := ⟨running, heard, empty⟩
  have words := setChannelStage_words (i := i) stage s
  have moved : stage.toInt - (s.channel i).currentTerm = offset := by rw [currentTerm_eq]; rfl
  rw [moved] at words
  refine ⟨fun channel h => ?noChannel, fun outside => ?outside, fun low high invalid => ?wrongState,
    fun low high (valid : (s.channel i).condition = .valid) => ⟨fun limits => ?outOfLimits,
      fun floor ceiling least most => ?moved⟩⟩
  case noChannel =>
    refine l.exec_badField .setChannelStage (k := 0) (by simp) ?_
    show setChannelStage (paramBytes [channel, stage]) s = _
    unfold setChannelStage
    rw [readWords_paramBytes]
    dsimp only
    rw [channelOf_none h]
  case outside =>
    refine l.exec_badField .setChannelStage (k := 1) (by simp) (words.trans (if_pos ?_))
    omega
  case wrongState =>
    refine l.exec_refused .setChannelStage (why := .wrongState) (detail := 0) (by simp) (words.trans ?_)
    rw [if_neg (not_not_intro ⟨low, high⟩)]
    exact if_pos invalid
  case outOfLimits =>
    refine l.exec_refused .setChannelStage (why := .outOfLimits) (detail := 0) (by simp) (words.trans ?_)
    rw [if_neg (not_not_intro ⟨low, high⟩), if_neg (not_not_intro valid), if_pos (by omega)]
  case moved =>
    rw [← putChannel_withChannel]
    refine l.exec_done .setChannelStage (by simp) (words.trans ?_)
    rw [if_neg (not_not_intro ⟨low, high⟩), if_neg (not_not_intro valid), if_neg (by omega)]
    rfl

/-- Settles O29: the count a quadrature change or a mark loads, and the reading that follows it. -/
theorem quadratureAndMarkEdgesMoveTheCount : Obligations.QuadratureAndMarkEdgesMoveTheCount := by
  constructor
  · intro i e s running c count value
    refine ⟨fun still => (unlessHeld_running _ running).trans (congrArg _ (quadratureChange_none still)),
      fun kind moves => ?_⟩
    have moved := quadratureChange_moves (s := s) (i := i) kind moves
    rw [stepCount_quadrature _ moves] at moved
    exact ⟨fun settling => exec_putChannel running 
        (moved.trans (congrArg _ (followCount_settling s (c := { c with count := count }) settling))),
      fun shown => exec_putChannel running
        (moved.trans (congrArg _ ((followCount_shown s (c := { c with count := count }) shown).trans
          (takeReading_eq s _ (encoderValue_eq _)))))⟩
  · intro i e m s running c level matching count before value loaded
    refine ⟨fun unfitted => exec_putChannel running (markEdge_unfitted e unfitted), fun kind mark => ?_⟩
    have taken := markEdge_fitted (s := s) (i := i) e kind mark
    have reloaded : matching → c.condition ≠ .off → markEdge i e s = s.putChannel i (loaded.followCount s) :=
      fun same on => (taken.trans (if_pos ⟨(matchesEdge_iff _ _).mpr same, on⟩)).trans (by
        unfold Channel.markReload
        rw [encoderValue_eq]
        rfl)
    refine ⟨fun differs => exec_putChannel running (taken.trans (if_neg (by
        rw [matchesEdge_iff]
        exact fun h => differs h.1))),
      fun same settling => exec_putChannel running ?_, fun same shown => exec_putChannel running ?_⟩
    · have on : c.condition ≠ .off := fun off => by cases settling.symm.trans off
      exact (reloaded same on).trans (congrArg _ (followCount_settling s settling))
    · have on : c.condition ≠ .off := fun off => by rcases shown with h | h <;> cases h.symm.trans off
      exact (reloaded same on).trans (congrArg _ ((followCount_shown s (c := loaded) shown).trans
        (takeReading_eq s _ (encoderValue_eq _))))

/-- Settles O30: the settling timer, the pulse, and the rows of the gate table. -/
theorem channelTimersAndPulses : Obligations.ChannelTimersAndPulses := by
  constructor
  · intro i n s running c value timer
    refine exec_putChannel running ?_
    exact (settlingTimerExpiry_runs timer).trans (congrArg _ (takeReading_eq s _ (encoderValue_eq _)))
  · intro i g s running c kind gate next few value condition result
    have completes : ∀ {k : Channel}, next.actOnGate s g.pulses = k → result k := fun e =>
      exec_putChannel running ((gateCompletion_runs kind gate).trans (congrArg _ e))
    exact ⟨exec_putChannel running (frequencyPulse_runs kind gate),
      fun settling h => completes (actOnGate_settling_few s (c := next) settling h),
      fun settling h first => completes (actOnGate_settling_first s (c := next) settling h first),
      fun settling h second => completes ((actOnGate_settling_second s (c := next) settling h second).trans
        (takeGate_eq s _ (gateValue_eq _ _))),
      fun reading h => completes (actOnGate_reading_few s (c := next) reading h),
      fun reading h => completes ((actOnGate_reading s (c := next) reading h).trans (takeGate_eq s _ (gateValue_eq _ _))),
      fun silent h => completes (actOnGate_silent_few s (c := next) silent h),
      fun silent h => completes (actOnGate_silent s (c := next) silent h)⟩

end

section
/-! SET VOTE (R24, R25), the table cursor (R45, R47, R49), the draft (R51, R52), the shift bands (R67 to R73) and RETIRE
VERTICAL (R83). -/

namespace Sys2Proof.Machine

/-! ### SET VOTE (R24) -/

theorem checkMaskOf_some {p : ChannelNumber} {m : BitVec 4} (h : m.getLsbD p.val = false) :
    checkMaskOf p (m.setWidth 32) = some m := by
  have small : (m.setWidth 32).toNat < 16 := by
    rw [BitVec.toNat_setWidth]
    have := m.isLt
    omega
  have off : (m.setWidth 32).getLsbD p.val = false := by
    rw [BitVec.getLsbD_setWidth, h, Bool.and_false]
  unfold checkMaskOf
  rw [if_pos ⟨small, off⟩, BitVec.setWidth_setWidth_of_le _ (by decide), BitVec.setWidth_eq]

theorem checkMaskOf_large {w : Word} (p : ChannelNumber) (h : 15 < w.toNat) : checkMaskOf p w = none :=
  if_neg fun fits => absurd fits.1 (by omega)

theorem checkMaskOf_primary_named {p : ChannelNumber} {m : BitVec 4} (h : m.getLsbD p.val = true) :
    checkMaskOf p (m.setWidth 32) = none := by
  refine if_neg fun fits => ?_
  have lt := p.isLt
  have on : (m.setWidth 32).getLsbD p.val = true := by
    rw [BitVec.getLsbD_setWidth, h, Bool.and_true]
    exact decide_eq_true (Nat.lt_trans lt (by decide))
  cases on.symm.trans fits.2

theorem setVote_words (p : ChannelNumber) (mask : Word) (s : State) :
    setVote (paramBytes [BitVec.ofNat 32 p.val, mask]) s =
      match checkMaskOf p mask with
      | none => badField s 1
      | some m =>
        done (s.setStage { s.stage with pendingSetup := some { primary := p, checks := m } })
          ({ s.stage with pendingSetup := some { primary := p, checks := m } } : StageBlock).voteReport := by
  unfold setVote
  rw [readWords_paramBytes]
  dsimp only
  rw [channelOf_ofNat] <;> rfl

/-! ### The cursor (R45, R47, R49) -/

/-- R44: the greatest index of a table. -/
theorem tableOf_some {w : Word} (h : w.toNat ≤ 2) :
    ∃ t, Table.ofCode w = some t ∧ t.slots = if w = 2 then 32 else 48 := by
  have named : w = 0 ∨ w = 1 ∨ w = 2 := by bv_omega
  rcases named with rfl | rfl | rfl
  · exact ⟨.draft, rfl, rfl⟩
  · exact ⟨.active, rfl, rfl⟩
  · exact ⟨.verticals, rfl, rfl⟩

theorem tableOf_none {w : Word} (h : 2 < w.toNat) : Table.ofCode w = none := by
  unfold Table.ofCode
  split_ifs with h0 h1 h2
  · subst h0; exact absurd h (by decide)
  · subst h1; exact absurd h (by decide)
  · subst h2; exact absurd h (by decide)
  · rfl

theorem tableOf_code (t : Table) : Table.ofCode (BitVec.ofInt 32 t.code) = some t := by cases t <;> decide

theorem table_slots (t : Table) : t.slots = if BitVec.ofInt 32 t.code = 2 then 32 else 48 := by cases t <;> decide

theorem setCursor_words (table index : Word) (s : State) :
    setCursor (paramBytes [table, index]) s =
      match Table.ofCode table with
      | none => badField s 0
      | some t =>
        match slotOf t.slots index with
        | none => badField s 1
        | some k =>
          done (s.setCursor { table := t, index := k, fields := [] })
            (s.setCursor { table := t, index := k, fields := [] }).cursorBytes := by
  unfold setCursor
  rw [readWords_paramBytes] <;> rfl

theorem toInt_ofNat_small {n : Nat} (h : n < 2147483648) : (BitVec.ofNat 32 n).toInt = n := by
  rw [BitVec.toInt_ofNat', Int.bmod_def]
  split <;> omega

theorem toNat_ofNat_small {n : Nat} (h : n < 4294967296) : (BitVec.ofNat 32 n).toNat = n := by
  rw [BitVec.toNat_ofNat]
  omega

theorem toInt_toNat {w : Word} (h : 0 ≤ w.toInt) : w.toInt.toNat = w.toNat := by
  have cond := BitVec.toInt_eq_toNat_cond w
  split at cond <;> omega

theorem readEntries_words (number : Word) (s : State) :
    readEntries (beWord number) s =
      if ¬ (1 ≤ number.toInt ∧ number.toInt ≤ 8) then badField s 0
      else if s.port.cursor.fields ≠ [] then refused s .wrongState 0
      else done (s.advanceCursor number.toNat)
        (s.entryHeader s.port.cursor.table s.port.cursor.index ++ (List.range number.toNat).flatMap fun j =>
          s.entryBytes s.port.cursor.table (s.port.cursor.table.onward s.port.cursor.index j)) := by
  unfold readEntries
  rw [readWords_beWord]
  simp only [within_iff]

/-- R49: READ ENTRIES of a count that fits, with no partial entry. -/
theorem readEntries_read {n : Nat} {s : State} (least : 1 ≤ n) (most : n ≤ 8) (whole : s.port.cursor.fields = []) :
    readEntries (beWord (BitVec.ofNat 32 n)) s = done (s.advanceCursor n)
      (s.entryHeader s.port.cursor.table s.port.cursor.index ++ (List.range n).flatMap fun j =>
        s.entryBytes s.port.cursor.table (s.port.cursor.table.onward s.port.cursor.index j)) := by
  rw [readEntries_words, toInt_ofNat_small (by omega), toNat_ofNat_small (by omega),
    if_neg (not_not_intro ⟨by omega, by omega⟩), if_neg (not_not_intro whole)]

theorem pointBytes_eq (p : Option Point) : pointBytes p =
    match p with
    | none => List.replicate 9 (0 : Byte)
    | some p => [1] ++ be4 p.stage ++ be4 p.discharge := by
  cases p with
  | none => decide
  | some p => rfl

/-! ### The draft (R51, R52) -/

theorem retirePoint_words (index : Word) (s : State) :
    retirePoint (beWord index) s =
      match slotOf Config.ratingPoints index with
      | none => badField s 0
      | some k =>
        if s.rating.draft.length ≤ k then refused s .notFound 0
        else done (draftChange (s.rating.draft.eraseIdx k) s) (be1 (s.rating.draft.eraseIdx k).length) := by
  unfold retirePoint
  rw [readWords_beWord] <;> rfl

/-! ### The shift bands (R67 to R73) -/

theorem ShiftTable.put_eq_set (t : ShiftTable) (k : Fin Config.shiftBands) (b : Option Band) :
    t.put k.val b = t.set k.val b k.isLt := by
  unfold ShiftTable.put
  ext1 i hi
  rw [Vector.getElem_setIfInBounds hi]
  exact (Vector.getElem_set k.isLt hi).symm

theorem ShiftTable.clash_iff (t : ShiftTable) (k : Nat) (lower upper : Int) :
    t.clash k lower upper = true ↔
      ∃ j b, j.val ≠ k ∧ t.get j = some b ∧ lower < b.upper ∧ b.lower < upper := by
  unfold ShiftTable.clash Band.overlaps
  simp only [List.any_eq_true, Bool.and_eq_true, bne_iff_ne, decide_eq_true_eq]
  constructor
  · rintro ⟨p, hp, other, below, above⟩
    obtain ⟨j, hj, hb⟩ := (mem_inUse t p).mp hp
    exact ⟨j, p.2, by rwa [← hj], hb, below, above⟩
  · rintro ⟨j, b, other, hb, below, above⟩
    exact ⟨(j.val, b), (mem_inUse t _).mpr ⟨j, rfl, hb⟩, other, below, above⟩

theorem defineShift_words (slot lower upper target : Word) (s : State) :
    defineShift (paramBytes [slot, lower, upper, target]) s =
      match slotOf Config.shiftBands slot with
      | none => badField s 0
      | some k =>
        if ¬ (-2000 ≤ lower.toInt ∧ lower.toInt ≤ 30000) then badField s 1
        else if ¬ (-2000 ≤ upper.toInt ∧ upper.toInt ≤ 30000) then badField s 2
        else if upper.toInt ≤ lower.toInt then badField s 2
        else if ¬ (-s.settings.read .shiftLimit ≤ target.toInt ∧ target.toInt ≤ s.settings.read .shiftLimit) then
          refused s .outOfLimits 0
        else if s.rating.bands.clash k lower.toInt upper.toInt then refused s .noRoom 0
        else
          done (s.setBands (s.rating.bands.put k
              (some (definedBand s (s.rating.bands.band k) lower.toInt upper.toInt target.toInt))))
            (bandBytes k (some (definedBand s (s.rating.bands.band k) lower.toInt upper.toInt target.toInt))) := by
  unfold defineShift
  rw [readWords_paramBytes]
  simp only [within_iff]
  rfl

theorem retireShift_words (slot : Word) (s : State) :
    retireShift (beWord slot) s =
      match slotOf Config.shiftBands slot with
      | none => badField s 0
      | some k =>
        match s.rating.bands.band k with
        | none => refused s .notFound 0
        | some b =>
          done (s.setBands (s.rating.bands.put k (some (b.retire s.clock)))) (bandBytes k (some (b.retire s.clock))) := by
  unfold retireShift
  rw [readWords_beWord] <;> rfl

theorem steadyAndTrusted_iff (r : StageRecord) :
    r.steadyAndTrusted = true ↔ r.trend = .steady ∧ (r.quality = .good ∨ r.quality = .failover) := by
  simp [StageRecord.steadyAndTrusted]

/-- R72: where a band that moves comes to stand. -/
def Band.moved (s : State) (b : Band) : Int :=
  if s.stage.record.trend = .steady ∧ (s.stage.record.quality = .good ∨ s.stage.record.quality = .failover) then b.target
  else if b.applied ≤ b.target then min b.target (b.applied + s.settings.read .rampStep)
  else max b.target (b.applied - s.settings.read .rampStep)

theorem Band.moved_eq (s : State) (b : Band) :
    (if s.stage.record.steadyAndTrusted = true then b.target else towards (s.setting .rampStep) b.applied b.target) =
      b.moved s := by
  simp only [steadyAndTrusted_iff]
  rfl

/-! ### RETIRE VERTICAL (R83) -/

theorem sectionLocked_iff (s : State) :
    s.sectionLocked = true ↔ s.gauging.run.state = .running ∨ s.gauging.run.state = .returning := by
  unfold State.sectionLocked
  cases s.gauging.run.state <;> simp [RunState.locks]

theorem retireVertical_words (index : Word) (s : State) :
    retireVertical (beWord index) s =
      match slotOf Config.verticals index with
      | none => badField s 0
      | some k =>
        if s.sectionLocked then refused s .locked 0
        else if s.verticals.length ≤ k then refused s .notFound 0
        else done (startIfReady (s.setVerticals (s.verticals.eraseIdx k))) (be1 (s.verticals.eraseIdx k).length) := by
  unfold retireVertical
  rw [readWords_beWord] <;> rfl

end Sys2Proof.Machine

open Sys2Proof Sys2Proof.Machine

/-- Settles O31: the checks of SET VOTE in their order, and the setup in force after the vote. -/
theorem setVoteLeavesAPendingSetup : Obligations.SetVoteLeavesAPendingSetup := by
  intro p m s running heard empty request
  have l : Listens s := ⟨running, heard, empty⟩
  refine ⟨fun primary mask h => ?noChannel, fun mask h => ?mask, fun named => ?named, fun free => ?taken,
    stageIntervalExpiry s, unlessHeld_running _ running, stageIntervalExpiry_pendingSetup s,
    stageIntervalExpiry_inForce s⟩
  case noChannel =>
    refine l.exec_badField .setVote (k := 0) (by simp) ?_
    show setVote (paramBytes [primary, mask]) s = _
    unfold setVote
    rw [readWords_paramBytes]
    dsimp only
    rw [channelOf_none h]
  case mask =>
    refine l.exec_badField .setVote (k := 1) (by simp) ((setVote_words p mask s).trans ?_)
    rw [checkMaskOf_large p h]
  case named =>
    refine l.exec_badField .setVote (k := 1) (by simp) ((setVote_words p _ s).trans ?_)
    rw [checkMaskOf_primary_named named]
  case taken =>
    refine l.exec_done .setVote (by simp) ((setVote_words p _ s).trans ?_)
    rw [checkMaskOf_some free]
    rfl

/-- Settles O36: the table, then the index, then the cursor placed. -/
theorem setCursorPlacesTheCursor : Obligations.SetCursorPlacesTheCursor := by
  intro table index s running heard empty request cursor
  have l : Listens s := ⟨running, heard, empty⟩
  have words := setCursor_words table index s
  refine ⟨fun h => ?noTable, fun h outside => ?noSlot, fun x code least most => ?placed, ?read⟩
  case noTable =>
    refine l.exec_badField .setCursor (k := 0) (by simp) (words.trans ?_)
    rw [tableOf_none h]
  case noSlot =>
    obtain ⟨t, named, slots⟩ := tableOf_some h
    refine l.exec_badField .setCursor (k := 1) (by simp) (words.trans ?_)
    have none : slotOf t.slots index = none := slotOf_none (by
      rw [slots]
      split at outside <;> simp_all)
    rw [named]
    dsimp only
    rw [none]
  case placed =>
    subst code
    refine l.exec_done .setCursor (by simp) (words.trans ?_)
    have some : slotOf x.slots index = some index.toInt.toNat := slotOf_some least (by
      rw [table_slots]
      split at most <;> simp_all)
    have nat := toInt_toNat least
    rw [tableOf_code]
    dsimp only
    rw [some, nat]
    rfl
  case read => exact l.exec_done .setCursor (by decide) rfl

/-- Settles O38: the count, the partial entry, then the header, the entries and the cursor moved on. -/
theorem readEntriesReadsFromTheCursor : Obligations.ReadEntriesReadsFromTheCursor := by
  intro s running heard empty
  have l : Listens s := ⟨running, heard, empty⟩
  refine ⟨fun w outside => ?count, fun n least most => ?_⟩
  case count =>
    refine l.exec_badField .readEntries (k := 0) (by simp) ((readEntries_words w s).trans (if_pos ?_))
    omega
  intro c request point answer
  have read : ∀ {size : Nat} {head : List Byte} {entry : Nat → List Byte}, c.fields = [] → c.table.slots = size →
      s.entryHeader c.table c.index = head → (∀ k, s.entryBytes c.table k = entry k) →
      exec request s = .next (answer size head entry) := fun {size head entry} whole slots header entries => by
    have owned := readEntries_read (s := s) least most whole
    have onward : ∀ j, c.table.onward c.index j = (c.index + j) % size := fun j => by
      unfold Table.onward
      rw [slots]
    have advanced : s.advanceCursor n =
        { s with port := { s.port with cursor := { c with index := (c.index + n) % size, fields := [] } } } := by
      unfold State.advanceCursor
      rw [show s.port.cursor.table.onward s.port.cursor.index n = (c.index + n) % size from onward n]
      rfl
    have listed : ((List.range n).flatMap fun j => s.entryBytes c.table (c.table.onward c.index j)) =
        (List.range n).flatMap fun j => entry ((c.index + j) % size) := by
      refine congrArg (fun f => (List.range n).flatMap f) (funext fun j => ?_)
      rw [onward, entries]
    refine (l.exec_done .readEntries (p := beWord (BitVec.ofNat 32 n)) (by simp) owned).trans (congrArg _ ?_)
    rw [advanced]
    show State.answered _ _ _ (s.entryHeader c.table c.index ++
      (List.range n).flatMap fun j => s.entryBytes c.table (c.table.onward c.index j)) = _
    rw [header, listed]
    rfl
  refine ⟨fun partly => ?partly,
    fun whole table => read (size := 48) (head := [0] ++ be1 c.index ++ be1 s.rating.draft.length)
      (entry := fun k => point s.rating.draft[k]?) whole (by rw [table]; rfl) ?draft ?draftEntries,
    fun whole table => read (size := 48)
      (head := [1] ++ be1 c.index ++ be1 s.rating.active.points.length ++ be2 s.rating.active.number.toNat ++
        beWord s.rating.active.effectiveFrom)
      (entry := fun k => point s.rating.active.points[k]?) whole (by rw [table]; rfl) ?active ?activeEntries,
    fun whole table => read (size := 32) (head := [2] ++ be1 c.index ++ be1 s.verticals.length)
      (entry := fun k => verticalBytes s.verticals[k]?) whole (by rw [table]; rfl) ?verticals ?verticalEntries⟩
  case partly =>
    refine l.exec_refused .readEntries (why := .wrongState) (detail := 0) (by simp) ((readEntries_words _ s).trans ?_)
    rw [toInt_ofNat_small (by omega), if_neg (not_not_intro ⟨by omega, by omega⟩)]
    exact if_pos partly
  case draft => rw [table]; exact List.append_nil _
  case active => rw [table]; unfold State.entryHeader; simp only [List.append_assoc]; rfl
  case verticals => rw [table]; exact List.append_nil _
  case draftEntries => rw [table]; exact fun k => pointBytes_eq _
  case activeEntries => rw [table]; exact fun k => pointBytes_eq _
  case verticalEntries => rw [table]; exact fun k => rfl

/-- Settles O39: the index, then the draft without the point, or the active points copied. -/
theorem retirePointAndCopyRating : Obligations.RetirePointAndCopyRating := by
  intro s running heard empty
  have l : Listens s := ⟨running, heard, empty⟩
  refine ⟨fun index => ?_, ?copy⟩
  case copy =>
    rw [← draftChange_withDraft]
    exact l.exec_done .copyRating (by decide) rfl
  intro request
  have words := retirePoint_words index s
  have slot : 0 ≤ index.toInt → index.toInt ≤ 47 → slotOf Config.ratingPoints index = some index.toInt.toNat :=
    fun least most => slotOf_some (n := 48) least (by omega)
  refine ⟨fun outside => ?outside, fun least most beyond => ?beyond, fun least most inside => ?retired⟩
  case outside =>
    have none : slotOf Config.ratingPoints index = none := slotOf_none (n := 48) (by omega)
    refine l.exec_badField .retirePoint (k := 0) (by simp) (words.trans ?_)
    rw [none]
  case beyond =>
    refine l.exec_refused .retirePoint (why := .notFound) (detail := 0) (by simp) (words.trans ?_)
    rw [slot least most]
    exact if_pos (by omega)
  case retired =>
    have nat := toInt_toNat least
    have lt : index.toNat < s.rating.draft.length := by omega
    rw [← draftChange_withDraft, ← List.eraseIdx_eq_take_drop_succ, ← List.length_eraseIdx_of_lt lt]
    refine l.exec_done .retirePoint (by simp) (words.trans ?_)
    rw [slot least most, nat]
    exact if_neg (Nat.not_le.mpr lt)

/-- Settles O42: the checks of the two requests, the band put in its slot, and each band after a ramp expiry. -/
theorem bandsAreDefinedRetiredAndRamped : Obligations.BandsAreDefinedRetiredAndRamped := by
  constructor
  · intro k s running heard empty put
    have l : Listens s := ⟨running, heard, empty⟩
    have slot : slotOf Config.shiftBands (BitVec.ofNat 32 k.val) = some k.val := slotOf_ofNat k.isLt (by decide)
    refine ⟨fun slot lower upper target => ?_, fun lower upper target => ?_, ?_⟩
    · intro badField isSlot stage
      have words := defineShift_words slot lower upper target s
      have named : isSlot → slotOf Config.shiftBands slot = some slot.toInt.toNat := fun ⟨least, most⟩ =>
        slotOf_some (n := 8) least (by omega)
      have bad : ∀ {n : Nat} {detail : Byte}, detail = BitVec.ofNat 8 n →
          defineShift (paramBytes [slot, lower, upper, target]) s = Machine.badField s n → badField detail :=
        fun e owned => by
          subst e
          exact l.exec_badField .defineShift (by simp) owned
      refine ⟨fun outside => ?outside, fun inside low => bad (n := 1) rfl (words.trans ?_),
        fun inside low high => bad (n := 2) rfl (words.trans ?_),
        fun inside low high order => bad (n := 2) rfl (words.trans ?_)⟩
      case outside =>
        have none : slotOf Config.shiftBands slot = none := slotOf_none (n := 8) (by
          simp only [isSlot] at outside
          omega)
        refine ⟨bad (n := 0) rfl (words.trans ?_),
          l.exec_badField .retireShift (k := 0) (by simp) ((retireShift_words slot s).trans ?_)⟩
        · rw [none]
        · rw [none]
      · rw [named inside]
        exact if_pos low
      · rw [named inside]
        exact (if_neg (not_not_intro low)).trans (if_pos high)
      · rw [named inside]
        exact ((if_neg (not_not_intro low)).trans (if_neg (not_not_intro high))).trans (if_pos order)
    · intro request order least most
      have words := defineShift_words (BitVec.ofNat 32 k.val) lower upper target s
      rw [slot] at words
      dsimp only at words
      rw [if_neg (not_not_intro ⟨least, by omega⟩), if_neg (not_not_intro ⟨by omega, most⟩), if_neg (by omega)] at words
      refine ⟨fun large => ?large, fun small => ⟨fun j b other hb below above => ?clash, fun clear => ?defined⟩⟩
      case large =>
        refine l.exec_refused .defineShift (why := .outOfLimits) (detail := 0) (by simp) (words.trans (if_pos ?_))
        omega
      case clash =>
        have clash : s.rating.bands.clash k.val lower.toInt upper.toInt = true :=
          (ShiftTable.clash_iff _ _ _ _).mpr ⟨j, b, fun e => other (Fin.ext e), hb, below, above⟩
        rw [if_neg (by omega), if_pos clash] at words
        exact l.exec_refused .defineShift (why := .noRoom) (detail := 0) (by simp) words
      case defined =>
        have apart : ¬ s.rating.bands.clash k.val lower.toInt upper.toInt = true := fun clash => by
          obtain ⟨j, b, other, hb, below, above⟩ := (ShiftTable.clash_iff _ _ _ _).mp clash
          have := clear j b (fun e => other (congrArg _ e)) hb
          omega
        rw [if_neg (by omega), if_neg apart, ShiftTable.put_eq_set, ShiftTable.band_eq_get] at words
        exact l.exec_done .defineShift (by simp) words
    · intro request
      have words := retireShift_words (BitVec.ofNat 32 k.val) s
      rw [slot] at words
      dsimp only at words
      rw [ShiftTable.band_eq_get] at words
      refine ⟨fun none => ?_, fun b hb => ?_⟩
      · rw [none] at words
        exact l.exec_refused .retireShift (why := .notFound) (detail := 0) (by simp) words
      · rw [hb] at words
        dsimp only at words
        rw [ShiftTable.put_eq_set] at words
        refine ⟨fun retiring => ?_, fun other => ?_⟩
        · have same : b.retire s.clock = b := by rw [Band.retire, retiring]
          rw [same] at words
          exact l.exec_done .retireShift (by simp) words
        · have retired : b.retire s.clock = { b with state := .retiring, target := 0, changed := s.clock } := by
            unfold Band.retire
            split
            · next h => exact absurd h other
            · rfl
          rw [retired] at words
          exact l.exec_done .retireShift (by simp) words
  · intro s running
    refine ⟨(rampExpiry s).rating.bands, unlessHeld_running _ running, fun k => ?_⟩
    rw [rampExpiry_band]
    refine ⟨fun none => by rw [none]; rfl, ?_⟩
    intro b hb step r moved
    have e : (if s.stage.record.steadyAndTrusted = true then b.target
        else towards (s.setting .rampStep) b.applied b.target) = moved := b.moved_eq s
    rw [hb, Option.bind_some]
    refine ⟨fun applied => ?_, fun ramping => ?_, fun retiring => ?_⟩
    · rw [Band.ramp, applied]
    · rw [Band.ramp, ramping]
      dsimp only
      rw [e]
    · rw [Band.ramp, retiring]
      dsimp only
      rw [e]

/-- Settles O43: the checks in their order, the section without the vertical, and the Armed run tested on it. -/
theorem retireVerticalClosesTheGap : Obligations.RetireVerticalClosesTheGap := by
  intro index s running heard empty request locked
  have l : Listens s := ⟨running, heard, empty⟩
  have words := retireVertical_words index s
  refine ⟨fun outside => ?outside, fun least most => ?_⟩
  case outside =>
    have none : slotOf Config.verticals index = none := slotOf_none (n := 32) (by omega)
    refine l.exec_badField .retireVertical (k := 0) (by simp) (words.trans ?_)
    rw [none]
  have nat := toInt_toNat least
  have slot : slotOf Config.verticals index = some index.toNat := nat ▸ slotOf_some (n := 32) least (by omega)
  rw [slot] at words
  dsimp only at words
  refine ⟨fun run => ?locked, fun free beyond => ?beyond, fun free inside => ?_⟩
  case locked =>
    refine l.exec_refused .retireVertical (why := .locked) (detail := 0) (by simp) (words.trans (if_pos ?_))
    exact (sectionLocked_iff s).mpr run
  case beyond =>
    refine l.exec_refused .retireVertical (why := .notFound) (detail := 0) (by simp) (words.trans ?_)
    rw [if_neg fun h => free ((sectionLocked_iff s).mp h)]
    exact if_pos (by omega)
  intro edited answer
  have lt : index.toNat < s.verticals.length := by omega
  rw [if_neg (fun h => free ((sectionLocked_iff s).mp h)), if_neg (Nat.not_le.mpr lt),
    List.length_eraseIdx_of_lt lt, List.eraseIdx_eq_take_drop_succ] at words
  have taken : exec request s = .next ((startIfReady edited).answered .done 0x30 answer) :=
    l.exec_done .retireVertical (p := beWord index) (by simp) words
  refine ⟨fun waits => ?_, fun i v ready first departs => ?_⟩
  · rw [taken, startIfReady_waits waits]
  · obtain ⟨begins, e⟩ := startRunning_departs (s := edited) ready.1 first departs ready.2.2.1
    rw [startIfReady_ready ready] at taken
    have verticals : (startRunning edited).verticals = edited.verticals := by rw [e]; rfl
    exact ⟨_, taken, verticals, rfl, begins.answered _⟩

end

section
/-! Adoption (R53 to R55) and lookups (R59 to R63, R66). -/

namespace Sys2Proof.Machine

/-! ### The validation of a draft (R54, R55) -/

/-- R54: a point above the point before it. -/
def Point.Above (q p : Point) : Prop := p.stage < q.stage ∧ p.discharge < q.discharge

theorem firstDisorder_ascending {before : Point} {index : Nat} {rest : List Point}
    (h : ∀ k p q, (before :: rest)[k]? = some p → (before :: rest)[k + 1]? = some q → q.Above p) :
    firstDisorder before index rest = none := by
  induction rest generalizing before index with
  | nil => rfl
  | cons q rest ih =>
    have above : q.Above before := h 0 before q rfl rfl
    exact (if_pos above).trans (ih fun k p r hp hr => h (k + 1) p r hp hr)

theorem firstDisorder_at {before : Point} {index k : Nat} {rest : List Point} {p q : Point}
    (hp : (before :: rest)[k]? = some p) (hq : (before :: rest)[k + 1]? = some q) (disorder : ¬ q.Above p)
    (ascends : ∀ j, j < k → ∀ p q, (before :: rest)[j]? = some p → (before :: rest)[j + 1]? = some q → q.Above p) :
    firstDisorder before index rest = some (index + k + 1) := by
  induction rest generalizing before index k with
  | nil => cases k <;> cases hq
  | cons r rest ih =>
    cases k with
    | zero =>
      cases hp
      cases hq
      exact if_neg disorder
    | succ k =>
      have above : r.Above before := ascends 0 (Nat.succ_pos k) before r rfl rfl
      have later := ih (index := index + 1) hp hq fun j hj p q hp hq => ascends (j + 1) (Nat.succ_lt_succ hj) p q hp hq
      refine (if_pos above).trans (later.trans (congrArg _ ?_))
      omega

theorem validateDraft_few {d : List Point} (h : d.length < 2) : validateDraft d = some .rejectedTooFew := by
  match d, h with
  | [], _ => rfl
  | [_], _ => rfl

theorem validateDraft_ascending {d : List Point} (enough : 2 ≤ d.length)
    (h : ∀ k p q, d[k]? = some p → d[k + 1]? = some q → q.Above p) : validateDraft d = none := by
  match d, enough with
  | p :: q :: rest, _ =>
    exact congrArg (Option.map AdoptionOutcome.rejectedOrder) (firstDisorder_ascending h)

theorem validateDraft_disorder {d : List Point} {k : Nat} {p q : Point} (hp : d[k]? = some p)
    (hq : d[k + 1]? = some q) (disorder : ¬ q.Above p)
    (ascends : ∀ j, j < k → ∀ p q, d[j]? = some p → d[j + 1]? = some q → q.Above p) :
    validateDraft d = some (.rejectedOrder (k + 1)) := by
  match d with
  | [] => cases hp
  | [_] => cases k <;> cases hq
  | a :: b :: rest =>
    have found := firstDisorder_at (index := 0) hp hq disorder ascends
    rw [Nat.zero_add] at found
    exact congrArg (Option.map AdoptionOutcome.rejectedOrder) found

theorem adoptionCompletion_rejected {s : State} {r : AdoptionRequest} {failure : AdoptionOutcome}
    (inFlight : s.rating.adoption.request = some r) (h : validateDraft s.rating.draft = some failure) :
    adoptionCompletion s =
      (s.setRating { s.rating with adoption := { request := none, lastOutcome := failure } }).raise .ratingRejected := by
  unfold adoptionCompletion
  rw [inFlight]
  dsimp only
  rw [h]

theorem adoptionCompletion_adopted {s : State} {r : AdoptionRequest}
    (inFlight : s.rating.adoption.request = some r) (h : validateDraft s.rating.draft = none) :
    adoptionCompletion s =
      (s.setRating { s.rating with
        active := { points := s.rating.draft, number := r.number, effectiveFrom := r.effectiveFrom },
        bands := if r.option = .clear then ShiftTable.empty else s.rating.bands,
        adoption := { request := none, lastOutcome := .adopted r.number } }).raise .ratingAdopted := by
  unfold adoptionCompletion
  rw [inFlight]
  dsimp only
  rw [h]

theorem adoptRating_words (number time option : Word) (s : State) :
    adoptRating (paramBytes [number, time, option]) s =
      if ¬ (0 ≤ number.toInt ∧ number.toInt ≤ 65535) then badField s 0
      else match ShiftOption.ofCode option with
        | none => badField s 2
        | some o =>
          if s.rating.adoption.request.isSome then refused s .adoptionPending 0
          else accepted (s.setRating { s.rating with
            adoption := { s.rating.adoption with
              request := some { number := number.setWidth 16, effectiveFrom := time, option := o } } }) [] := by
  unfold adoptRating
  rw [readWords_paramBytes]
  simp only [within_iff] <;> rfl

theorem shiftOptionOf_none {w : Word} (h : 1 < w.toNat) : ShiftOption.ofCode w = none := by
  unfold ShiftOption.ofCode
  split_ifs with h0 h1
  · subst h0; exact absurd h (by decide)
  · subst h1; exact absurd h (by decide)
  · rfl

theorem shiftOptionOf_code (o : ShiftOption) : ShiftOption.ofCode (if o = .keep then 0 else 1) = some o := by
  cases o <;> rfl

theorem toInt_small {w : Word} (h : w.toNat < 2147483648) : w.toInt = w.toNat := by
  have cond := BitVec.toInt_eq_toNat_cond w
  split at cond <;> omega

/-! ### Lookups (R59 to R63, R66) -/

theorem containing_of_none {t : ShiftTable} {stage : Int}
    (h : ∀ i b, t.get i = some b → stage < b.lower ∨ b.upper ≤ stage) : t.containing stage = none := by
  cases e : t.containing stage with
  | none => rfl
  | some p =>
    obtain ⟨i, -, hb, lower, upper⟩ := containing_some (k := p.1) (b := p.2) e
    have := h i p.2 hb
    omega

/-- R66: lawful bands do not overlap, so the one that covers a stage is the containing band. -/
theorem containing_of_covers {limit : Int} {t : ShiftTable} (law : BandsLaw limit t) {stage : Int}
    {i : Fin Config.shiftBands} {b : Band} (hb : t.get i = some b) (lower : b.lower ≤ stage) (upper : stage < b.upper) :
    t.containing stage = some (i.val, b) := by
  cases e : t.containing stage with
  | none =>
    have := containing_none e hb
    omega
  | some p =>
    obtain ⟨j, hj, hc, lower', upper'⟩ := containing_some (k := p.1) (b := p.2) e
    have same : j = i := by
      by_contra differ
      have := law.2 j i p.2 b differ hc hb
      omega
    subst same
    cases hc.symm.trans hb
    rw [← hj]

theorem forwardLookup_of_containing {s : State} {stage : Int} {band : Option (Nat × Band)}
    (h : s.rating.bands.containing stage = band) {applied : Int}
    (ha : (band.map fun p => p.2.applied).getD 0 = applied) {discharge : Option Int} {flag : LookupFlag}
    (hr : rateStage s.rating.active.points (stage + applied) = (discharge, flag)) :
    forwardLookup s stage =
      { number := s.rating.active.number, stage := stage, slot := band.map fun p => p.1, applied := applied,
        effective := stage + applied, discharge := discharge, flag := flag } := by
  unfold forwardLookup
  dsimp only
  rw [h, ha, hr]

/-- The points of a rating, each above the points before it. -/
def Ascending (points : List Point) : Prop := points.Pairwise fun p q => p.stage < q.stage ∧ p.discharge < q.discharge

theorem ActiveLaw.ascending {points : List Point} (h : ActiveLaw points) : Ascending points := by
  rcases h with rfl | ⟨-, -, ascending⟩
  · exact List.Pairwise.nil
  · exact ascending

theorem Ascending.head_le {first : Point} {rest : List Point} (h : Ascending (first :: rest)) {k : Nat} {p : Point}
    (hp : (first :: rest)[k]? = some p) : first.stage ≤ p.stage ∧ first.discharge ≤ p.discharge := by
  rcases List.mem_cons.mp (List.mem_of_getElem? hp) with rfl | inRest
  · exact ⟨le_rfl, le_rfl⟩
  · obtain ⟨stage, discharge⟩ := List.rel_of_pairwise_cons h inRest
    exact ⟨stage.le, discharge.le⟩

/-- R59: the segment that holds the effective stage. -/
theorem alongSegments_within {lower : Point} {rest : List Point} {h : Int} (ascending : Ascending (lower :: rest))
    {k : Nat} {p q : Point} (hp : (lower :: rest)[k]? = some p) (hq : (lower :: rest)[k + 1]? = some q)
    (below : p.stage < h) (above : h ≤ q.stage) : alongSegments lower rest h = (onSegment p q h, .inRating) := by
  induction rest generalizing lower k with
  | nil => cases k <;> cases hq
  | cons upper rest ih =>
    cases k with
    | zero =>
      cases hp
      cases hq
      cases rest <;> exact if_pos above
    | succ k =>
      have beyond : ¬ h ≤ upper.stage := by
        have := (Ascending.head_le ascending.of_cons hp).1
        omega
      cases rest with
      | nil => cases k <;> cases hq
      | cons next rest =>
        unfold alongSegments
        rw [if_neg beyond]
        exact ih ascending.of_cons hp hq

/-- R59: beyond the last segment. -/
theorem alongSegments_beyond {lower : Point} {rest : List Point} {h : Int} (ascending : Ascending (lower :: rest))
    {k : Nat} {p q : Point} (hp : (lower :: rest)[k]? = some p) (hq : (lower :: rest)[k + 1]? = some q)
    (last : k + 2 = (lower :: rest).length) (beyond : q.stage < h) :
    alongSegments lower rest h = (min Config.dischargeMax (onSegment p q h), .aboveRating) := by
  induction rest generalizing lower k with
  | nil => cases k <;> cases hq
  | cons upper rest ih =>
    have passed : ¬ h ≤ upper.stage := by
      have := (Ascending.head_le ascending.of_cons (k := k) (p := q) hq).1
      omega
    cases rest with
    | nil =>
      cases k with
      | zero =>
        cases hp
        cases hq
        exact if_neg passed
      | succ k => simp at last
    | cons next rest =>
      cases k with
      | zero => simp at last
      | succ k =>
        unfold alongSegments
        rw [if_neg passed]
        exact ih ascending.of_cons hp hq (by simpa using last)

theorem rateStage_below {p : Point} {rest : List Point} {h : Int} (below : h ≤ p.stage) :
    rateStage (p :: rest) h = (some p.discharge, .belowRating) := if_pos below

theorem rateStage_along {points : List Point} {h v : Int} {flag : LookupFlag} {first : Point} {rest : List Point}
    (e : points = first :: rest) (above : first.stage < h) (along : alongSegments first rest h = (v, flag)) :
    rateStage points h = (some v, flag) := by
  subst e
  have passed : ¬ h ≤ first.stage := by omega
  have rated : rateStage (first :: rest) h =
      (some (alongSegments first rest h).1, (alongSegments first rest h).2) := if_neg passed
  rw [rated, along]

theorem inverseAlong_none {lower : Point} {rest : List Point} {v : Int} (h : ∀ p ∈ rest, p.discharge < v) :
    inverseAlong lower rest v = none := by
  induction rest generalizing lower with
  | nil => rfl
  | cons upper rest ih =>
    unfold inverseAlong
    rw [if_neg (by have := h upper List.mem_cons_self; omega)]
    exact ih fun p hp => h p (List.mem_cons_of_mem _ hp)

theorem inverseLookup_none {points : List Point} {v : Int}
    (h : points = [] ∨ (∃ p rest, points = p :: rest ∧ v < p.discharge) ∨ ∀ p ∈ points, p.discharge < v) :
    inverseLookup points v = none := by
  rcases h with rfl | ⟨p, rest, rfl, below⟩ | above
  · rfl
  · exact if_pos below
  · cases points with
    | nil => rfl
    | cons first rest =>
      have passed : ¬ v < first.discharge := by have := above first List.mem_cons_self; omega
      exact (if_neg passed).trans (inverseAlong_none fun p hp => above p (List.mem_cons_of_mem _ hp))

/-- R61: the segment that holds the discharge. -/
theorem inverseAlong_within {lower : Point} {rest : List Point} {v : Int} (ascending : Ascending (lower :: rest))
    {k : Nat} {p q : Point} (hp : (lower :: rest)[k]? = some p) (hq : (lower :: rest)[k + 1]? = some q)
    (below : p.discharge < v ∨ (k = 0 ∧ p.discharge = v)) (above : v ≤ q.discharge) :
    inverseAlong lower rest v = some (p.stage +
      roundHalfUp ((q.stage - p.stage) * (v - p.discharge)) (q.discharge - p.discharge)) := by
  induction rest generalizing lower k with
  | nil => cases k <;> cases hq
  | cons upper rest ih =>
    unfold inverseAlong
    cases k with
    | zero =>
      cases hp
      cases hq
      exact if_pos above
    | succ k =>
      have strictly : p.discharge < v := below.resolve_right fun zero => Nat.succ_ne_zero k zero.1
      have passed := (Ascending.head_le ascending.of_cons hp).2
      rw [if_neg (by omega)]
      exact ih ascending.of_cons hp hq (.inl strictly)

theorem inverseLookup_within {points : List Point} {v : Int} (ascending : Ascending points) {k : Nat} {p q : Point}
    (hp : points[k]? = some p) (hq : points[k + 1]? = some q)
    (below : p.discharge < v ∨ (k = 0 ∧ p.discharge = v)) (above : v ≤ q.discharge) :
    inverseLookup points v = some (p.stage +
      roundHalfUp ((q.stage - p.stage) * (v - p.discharge)) (q.discharge - p.discharge)) := by
  cases points with
  | nil => cases hp
  | cons first rest =>
    have least := (Ascending.head_le ascending hp).2
    have passed : ¬ v < first.discharge := by omega
    exact (if_neg passed).trans (inverseAlong_within ascending hp hq below above)

theorem lookup_words (direction value : Word) (s : State) :
    lookup (paramBytes [direction, value]) s =
      if direction = 0 then
        if -2000 ≤ value.toInt ∧ value.toInt ≤ 30000 then done s (forwardLookup s value.toInt).bytes else badField s 1
      else if direction = 1 then
        if 0 ≤ value.toInt ∧ value.toInt ≤ 16000000 then
          match inverseLookup s.rating.active.points value.toInt with
          | some stage => done s (be2 s.rating.active.number.toNat ++ be4 value.toInt ++ be4 stage)
          | none => refused s .outOfLimits 0
        else badField s 1
      else badField s 0 := by
  unfold lookup
  rw [readWords_paramBytes]
  simp only [within_iff] <;> rfl

end Sys2Proof.Machine

open Sys2Proof Sys2Proof.Machine

/-- Settles O40: the request in the order of its checks, and its completion by the validation of the draft. -/
theorem adoptionAdoptsOrRejects : Obligations.AdoptionAdoptsOrRejects := by
  intro number time option s running values request d above rejected
  refine ⟨fun heard empty => ?requests, fun inFlight => ?completes, fun none => ?nothing⟩
  case requests =>
    have l : Listens s := ⟨running, heard, empty⟩
    have width := number.isLt
    have nat : (number.setWidth 32).toNat = number.toNat := by
      rw [BitVec.toNat_setWidth]
      omega
    have int : (number.setWidth 32).toInt = number.toNat := by rw [toInt_small (by omega), nat]
    have words := adoptRating_words (number.setWidth 32) time (if option = .keep then 0 else 1) s
    rw [if_neg (not_not_intro (by rw [int]; omega)), shiftOptionOf_code, BitVec.setWidth_setWidth_of_le _ (by decide),
      BitVec.setWidth_eq] at words
    dsimp only at words
    refine ⟨fun n w o => ⟨fun large => ?large, fun small unknown => ?unknown⟩, fun free => ?accepted,
      fun pending => ?pending⟩
    case large =>
      refine l.exec_badField .adoptRating (k := 0) (by simp) ((adoptRating_words n w o s).trans (if_pos ?_))
      have cond := BitVec.toInt_eq_toNat_cond n
      split at cond <;> omega
    case unknown =>
      refine l.exec_badField .adoptRating (k := 2) (by simp) ((adoptRating_words n w o s).trans ?_)
      rw [if_neg (not_not_intro (by rw [toInt_small (by omega)]; omega)), shiftOptionOf_none unknown]
    case accepted =>
      rw [free] at words
      exact l.exec_accepted .adoptRating (by simp) words
    case pending =>
      rw [if_pos (Option.isSome_iff_ne_none.mpr pending)] at words
      exact l.exec_refused .adoptRating (why := .adoptionPending) (detail := 0) (by simp) words
  case completes =>
    have completes : ∀ {t}, adoptionCompletion s = t → exec .adoptionCompletion s = .next t := fun e =>
      (unlessHeld_running _ running).trans (congrArg _ e)
    exact ⟨fun few => completes (adoptionCompletion_rejected inFlight (validateDraft_few few)),
      fun k p q hp hq disorder ascends =>
        completes (adoptionCompletion_rejected inFlight (validateDraft_disorder hp hq disorder ascends)),
      fun enough ascends =>
        completes (adoptionCompletion_adopted inFlight (validateDraft_ascending enough ascends))⟩
  case nothing =>
    refine (unlessHeld_running _ running).trans (congrArg _ ?_)
    unfold adoptionCompletion
    rw [none]

/-- Settles O41: the direction and the ranges, then the containing band and the segment of the rating. -/
theorem lookupReadsTheRating : Obligations.LookupReadsTheRating := by
  intro value s running heard empty v points forward inverse badField
  have l : Listens s := ⟨running, heard, empty⟩
  have ahead : -2000 ≤ v → v ≤ 30000 → exec forward s = .next (s.answered .done 0x26 (forwardLookup s v).bytes) :=
    fun least most => l.exec_done .lookup (by simp) ((lookup_words 0 value s).trans
      ((if_pos rfl).trans (if_pos ⟨least, most⟩)))
  have back := (lookup_words 1 value s).trans ((if_neg (by decide)).trans (if_pos rfl))
  refine ⟨fun direction h => ?direction, fun outside => ?stage, fun outside => ?discharge,
    fun slot applied named => ?forward, fun most least => ?inverse⟩
  case direction =>
    refine l.exec_badField .lookup (k := 0) (by simp) ((lookup_words direction value s).trans ?_)
    rw [if_neg (fun e => by subst e; exact absurd h (by decide)), if_neg (fun e => by subst e; exact absurd h (by decide))]
  case stage =>
    refine l.exec_badField .lookup (k := 1) (by simp) ((lookup_words 0 value s).trans ((if_pos rfl).trans (if_neg ?_)))
    omega
  case discharge =>
    refine l.exec_badField .lookup (k := 1) (by simp) (back.trans (if_neg ?_))
    omega
  case forward =>
    intro h answer most least
    obtain ⟨band, contains, slotOf, appliedOf⟩ : ∃ band, s.rating.bands.containing v = band ∧
        (band.map fun p => p.1) = slot ∧ (band.map fun p => p.2.applied).getD 0 = applied := by
      rcases named with ⟨rfl, rfl, outside⟩ | ⟨i, b, rfl, rfl, hb, lower, upper, law⟩
      · exact ⟨none, containing_of_none outside, rfl, rfl⟩
      · exact ⟨some (i.val, b), containing_of_covers law hb lower upper, rfl, rfl⟩
    have rated : ∀ {discharge flag}, rateStage points h = (discharge, flag) → answer discharge flag := fun hr => by
      refine (ahead least most).trans ?_
      rw [forwardLookup_of_containing contains appliedOf hr, slotOf]
    refine ⟨fun none => rated (by rw [none]; rfl), fun p rest e below => rated (by rw [e]; exact rateStage_below below),
      fun law k p q hp hq => ?_⟩
    intro line
    have ascending := ActiveLaw.ascending law
    cases e : points with
    | nil => rw [e] at hp; cases hp
    | cons first rest =>
      rw [e] at hp hq ascending
      have lowest := (Ascending.head_le ascending hp).1
      have next := (Ascending.head_le ascending hq).1
      refine ⟨fun below above => rated (rateStage_along e (by omega) (alongSegments_within ascending hp hq below above)),
        fun last beyond => rated (rateStage_along e ?_ (alongSegments_beyond ascending hp hq last beyond))⟩
      omega
  case inverse =>
    have read := back.trans (if_pos ⟨least, most⟩)
    refine ⟨fun outside => ?_, fun law k p q hp hq below above => ?_⟩
    · rw [inverseLookup_none outside] at read
      exact l.exec_refused .lookup (why := .outOfLimits) (detail := 0) (by simp) read
    · rw [inverseLookup_within (ActiveLaw.ascending law) hp hq below above] at read
      exact l.exec_done .lookup (by simp) read

end

section
/-! HOME CARRIAGE (R105, R106), and the line events of the cableway with nothing in progress or with a fault (R93 to R97,
R107 to R109). -/

namespace Sys2Proof.Machine

/-! ### The interlocks in the words of the claims -/

theorem inhibited_iff (s : State) : s.inhibited = true ↔ s.warning.effects.cableInhibit ≠ [] := by
  simp [State.inhibited]

theorem inhibited_eq_false (s : State) : s.inhibited = false ↔ s.warning.effects.cableInhibit = [] := by
  simp [State.inhibited]

theorem fitted_iff (s : State) : s.fitted = true ↔ s.port.cablewayFitted = .high := by
  simp [State.fitted]

theorem mayTraverse_iff (s : State) (way : TraverseWay) : s.mayTraverse way = true ↔
    s.port.cablewayFitted = .high ∧ s.asserted .top = true ∧ (way = .outward → s.warning.effects.cableInhibit = []) := by
  unfold State.mayTraverse
  rw [Bool.and_eq_true, Bool.and_eq_true, fitted_iff, Bool.not_eq_true', ← inhibited_eq_false, and_assoc]
  cases way <;> simp

theorem mayHoist_iff (s : State) (way : HoistWay) : s.mayHoist way = true ↔
    s.port.cablewayFitted = .high ∧ (way = .down → s.warning.effects.cableInhibit = []) := by
  unfold State.mayHoist
  rw [Bool.and_eq_true, fitted_iff, Bool.not_eq_true', ← inhibited_eq_false]
  cases way <;> simp

theorem asserted_iff (s : State) (c : Contact) :
    s.asserted c = true ↔ levelAt s.cable.contacts c = levelOfSetting (s.settings.read (levelSetting c)) :=
  beq_iff_eq

/-! ### Homing (R105, R106) -/

theorem travel_carried {s : State} (way : TraverseWay) (top : s.asserted .top = true) :
    travel way s = s.setCable { s.cable.runTraverse way with recovering := false } := if_pos top

theorem afterRaisePhase_find {s : State} (top : s.asserted .top = true) (home : s.asserted .home = false) :
    afterRaisePhase s = s.setCable
      { { s.cable with activity := .homing .find }.runTraverse .inward with recovering := false } := by
  unfold afterRaisePhase
  rw [if_neg (by rw [home]; decide)]
  exact travel_carried _ top

theorem afterRaisePhase_release {s : State} (top : s.asserted .top = true) (home : s.asserted .home = true)
    (free : s.inhibited = false) :
    afterRaisePhase s = s.setCable
      { { s.cable with activity := .homing .release }.runTraverse .outward with recovering := false } := by
  unfold afterRaisePhase
  rw [if_pos home, if_neg (by rw [free]; decide)]
  exact travel_carried _ top

theorem afterRaisePhase_parked {s : State} (home : s.asserted .home = true) (inhibited : s.inhibited = true) :
    afterRaisePhase s = (loadHome s).rest .parked := by
  unfold afterRaisePhase
  rw [if_pos home, if_pos inhibited]

/-- The cableway that a taken HOME CARRIAGE starts from. -/
def State.homingBegun (s : State) : State :=
  s.setCable { s.cable with state := .homing, activity := .homing .raise, recovering := false }

theorem beginHoming_raise {s : State} (top : s.asserted .top = false) :
    beginHoming s = s.homingBegun.setCable (s.homingBegun.cable.runHoist .up) :=
  if_neg (by show ¬ s.asserted .top = true; rw [top]; decide)

theorem beginHoming_next {s : State} (top : s.asserted .top = true) : beginHoming s = afterRaisePhase s.homingBegun :=
  if_pos top

theorem homeCarriage_locked {s : State} (fitted : s.fitted = true)
    (h : (s.gauging.run.state = .armed ∨ s.gauging.run.state = .running ∨ s.gauging.run.state = .returning) ∨
      (s.cable.state ≠ .unhomed ∧ s.cable.state ≠ .parked)) : homeCarriage [] s = refused s .wrongState 0 := by
  unfold homeCarriage
  dsimp only
  rw [fitted, if_neg (by decide)]
  split
  · rfl
  · rfl
  · rfl
  · next armed running returning =>
    rcases h with (h | h | h) | h
    · exact absurd h armed
    · exact absurd h running
    · exact absurd h returning
    · exact if_neg fun e => e.elim h.1 h.2

theorem homeCarriage_begins {s : State} (fitted : s.fitted = true)
    (free : ¬ (s.gauging.run.state = .armed ∨ s.gauging.run.state = .running ∨ s.gauging.run.state = .returning))
    (h : s.cable.state = .unhomed ∨ s.cable.state = .parked) : homeCarriage [] s = accepted (beginHoming s) [] := by
  unfold homeCarriage
  dsimp only
  rw [fitted, if_neg (by decide)]
  split
  · next e => exact absurd (.inl e) free
  · next e => exact absurd (.inr (.inl e)) free
  · next e => exact absurd (.inr (.inr e)) free
  · exact if_pos h

/-! ### The period boundary (R93) -/

/-- The cableway after the drives took a period boundary. -/
def State.atBoundary (s : State) : Cableway :=
  { s.cable with traverse := s.cable.traverse.atBoundary s.mayTraverse s.traverseDuty,
                 hoist := s.cable.hoist.atBoundary s.mayHoist (s.setting .hoistDuty) }

theorem drivePeriodBoundary_eq (s : State) : drivePeriodBoundary s = snagTest (s.setCable s.atBoundary) := rfl

/-- R93, R108: a boundary that leaves a cableway on which no snag is taken. -/
theorem drivePeriodBoundary_goes {s : State} {x : Cableway}
    (e : s.atBoundary = x)
    (h : s.asserted .snag = false ∨ (x.traverse.on = false ∧ x.hoist.on = false)) (contacts : x.contacts = s.cable.contacts) :
    drivePeriodBoundary s = going (s.setCable x) := by
  rw [drivePeriodBoundary_eq, e]
  refine if_neg ?_
  have same : (s.setCable x).asserted .snag = s.asserted .snag := asserted_congr .snag contacts rfl
  rw [same, setCable_cable]
  rcases h with h | ⟨traverse, hoist⟩
  · rw [h, Bool.false_and]; decide
  · rw [traverse, hoist, Bool.or_self, Bool.and_false]; decide

theorem drivePeriodBoundary_snags {s : State} {x : Cableway}
    (e : s.atBoundary = x)
    (snag : s.asserted .snag = true) (on : x.traverse.on = true ∨ x.hoist.on = true)
    (contacts : x.contacts = s.cable.contacts) :
    drivePeriodBoundary s = takeFault .snag (s.setCable x) := by
  rw [drivePeriodBoundary_eq, e]
  refine if_pos ?_
  have same : (s.setCable x).asserted .snag = s.asserted .snag := asserted_congr .snag contacts rfl
  rw [same, snag, Bool.true_and, Bool.or_eq_true]
  exact on

/-! ### Counters and contacts with nothing in progress (R95 to R97) -/

/-- R2, R95, R96: the count that a change of one quadrature line leaves. -/
theorem stepCount_movedCount (n : Word) {e : QuadratureEdge} (h : e.changed ≠ .both) :
    stepCount n (quadratureStep e) = movedCount e n := stepCount_quadrature n h

theorem traverseCountChange_moves {s : State} {e : QuadratureEdge} (h : e.changed ≠ .both) :
    traverseCountChange e s = traverseTests (s.setCable { s.cable with
      traverseCount := movedCount e s.cable.traverseCount, traverse := s.cable.traverse.turned }) := by
  unfold traverseCountChange
  rw [if_neg (fun zero => h (quadratureStep_eq_zero.mp zero)), stepCount_movedCount _ h]

theorem depthCountChange_moves {s : State} {e : QuadratureEdge} (h : e.changed ≠ .both) :
    depthCountChange e s = hoistTests (s.setCable { s.cable with
      depthCount := movedCount e s.cable.depthCount, hoist := s.cable.hoist.turned }) := by
  unfold depthCountChange
  rw [if_neg (fun zero => h (quadratureStep_eq_zero.mp zero)), stepCount_movedCount _ h]

theorem traverseCountChange_both {e : QuadratureEdge} (s : State) (h : e.changed = .both) :
    traverseCountChange e s = going s := if_pos (quadratureStep_eq_zero.mpr h)

theorem depthCountChange_both {e : QuadratureEdge} (s : State) (h : e.changed = .both) :
    depthCountChange e s = going s := if_pos (quadratureStep_eq_zero.mpr h)

theorem testSlowZone_none {s : State} (h : s.traverseTarget = none) : testSlowZone s = s := by
  unfold testSlowZone
  rw [h]

theorem traverseTests_idle {s : State} (idle : s.cable.activity = .idle) : traverseTests s = going s := by
  have none : s.traverseTarget = none := by rw [State.traverseTarget, idle]
  unfold traverseTests
  rw [idle]
  exact congrArg going (testSlowZone_none none)

theorem hoistTests_idle {s : State} (idle : s.cable.activity = .idle) : hoistTests s = going s := by
  unfold hoistTests
  rw [idle]

/-- A state whose cableway is replaced by an equal one. -/
theorem setCable_self (s : State) : s.setCable s.cable = s := rfl

/-- R97: the state that has taken a level of a contact. -/
def State.withContact (s : State) (c : Contact) (v : Level) : State :=
  s.setCable { s.cable with contacts := withLevel s.cable.contacts c v }

section
variable {s : State} {v : Level}

theorem contactChange_home_asserts (h : v ≠ s.cable.contacts.home) (asserts : (s.withContact .home v).asserted .home = true) :
    contactChange .home v s = homeEdge (s.withContact .home v) := (if_neg (Ne.symm h)).trans (if_pos asserts)

theorem contactChange_home_releases (h : v ≠ s.cable.contacts.home)
    (releases : ¬ (s.withContact .home v).asserted .home = true) :
    contactChange .home v s = contactTests (s.withContact .home v) := (if_neg (Ne.symm h)).trans (if_neg releases)

theorem contactChange_top (h : v ≠ s.cable.contacts.top) : contactChange .top v s = contactTests (s.withContact .top v) :=
  if_neg (Ne.symm h)

theorem contactChange_bottom (h : v ≠ s.cable.contacts.bottom) :
    contactChange .bottom v s = contactTests (s.withContact .bottom v) := if_neg (Ne.symm h)

theorem contactChange_snag (h : v ≠ s.cable.contacts.snag) : contactChange .snag v s = snagTest (s.withContact .snag v) :=
  if_neg (Ne.symm h)

theorem contactChange_wets (h : v ≠ s.cable.contacts.surface)
    (wets : (s.withContact .surface v).asserted .surface = true ∧ s.cable.state = .lowering) :
    contactChange .surface v s = wetEdge (s.withContact .surface v) := (if_neg (Ne.symm h)).trans (if_pos wets)

theorem contactChange_surface_still (h : v ≠ s.cable.contacts.surface) (idle : s.cable.activity = .idle) :
    contactChange .surface v s = going (s.withContact .surface v) := by
  refine (if_neg (Ne.symm h)).trans ?_
  have still : wetEdge (s.withContact .surface v) = going (s.withContact .surface v) := by
    unfold wetEdge State.withContact
    rw [setCable_cable, idle]
  exact (ite_congr rfl (fun _ => still) fun _ => rfl).trans (ite_self _)

end

theorem withLevel_same (l : ContactLevels) (c : Contact) : withLevel l c (levelAt l c) = l := by cases c <;> rfl

theorem contactEnds_idle {s : State} (idle : s.cable.activity = .idle) : contactEnds s = going s := by
  unfold contactEnds
  rw [idle]

theorem enforceCarry_carried {s : State} (top : s.asserted .top = true) : enforceCarry s = s := if_pos top

theorem enforceCarry_still {s : State} (on : s.cable.traverse.on = false) (start : s.cable.traverse.start = none)
    (jam : s.cable.traverse.jam = 0) : enforceCarry s = s := by
  have off : s.cable.traverse.off = s.cable.traverse := by
    unfold Drive.off
    rw [← on, ← start, ← jam]
  unfold enforceCarry
  rw [off]
  split <;> rfl

theorem snagTest_still {s : State} (traverse : s.cable.traverse.on = false) (hoist : s.cable.hoist.on = false) :
    snagTest s = going s :=
  if_neg (by rw [traverse, hoist, Bool.or_self, Bool.and_false]; decide)

/-- R97: a contact but Home, with nothing in progress and no drive on, takes its level and nothing else. -/
theorem contactChange_still {s : State} {c : Contact} {v : Level} (idle : s.cable.activity = .idle)
    (on : s.cable.traverse.on = false) (start : s.cable.traverse.start = none) (jam : s.cable.traverse.jam = 0)
    (hoist : s.cable.hoist.on = false) (notHome : c ≠ .home) :
    contactChange c v s = going (s.setCable { s.cable with contacts := withLevel s.cable.contacts c v }) := by
  by_cases same : v = levelAt s.cable.contacts c
  · rw [same, withLevel_same]
    exact if_pos rfl
  · have tests : contactTests (s.withContact c v) = going (s.withContact c v) := by
      have carried : enforceCarry (s.withContact c v) = s.withContact c v := enforceCarry_still on start jam
      unfold contactTests
      rw [carried]
      exact contactEnds_idle idle
    cases c with
    | home => exact absurd rfl notHome
    | top => exact (contactChange_top same).trans tests
    | bottom => exact (contactChange_bottom same).trans tests
    | snag => exact (contactChange_snag same).trans (snagTest_still on hoist)
    | surface => exact contactChange_surface_still same idle

/-! ### Faults (R107 to R109, R135) -/

/-- The cableway that a fault leaves. -/
def State.halted (s : State) (kind : FaultKind) : Cableway :=
  { s.cable.stopped with
    state := .halted, haltedKnown := s.knownPosition.isSome, activity := .idle, recovering := false,
    lastFault := some { kind := kind, state := s.cable.state, position := s.knownPosition, depth := s.depth,
                        time := s.clock } }

theorem takeFault_state (kind : FaultKind) (s : State) :
    (takeFault kind s).state = (s.setCable (s.halted kind)).raise .carriageFault := by
  unfold State.halted
  rw [knownPosition_isSome]
  rfl

theorem takeResult_faulted {s : State} (h : s.run.state = .running ∨ s.run.state = .returning) :
    takeResult .faulted s = going (faultedEnd s) := by
  unfold takeResult
  rcases h with h | h <;> rw [h]

theorem takeResult_ignored {s : State} (r : MoveResult) (h : s.run.state ≠ .running ∧ s.run.state ≠ .returning) :
    takeResult r s = going s := by
  unfold takeResult
  split <;> simp_all

theorem drain_going {s : State} {r : MoveResult} {t : State} (h : takeResult r s = going t) (n : Nat) :
    drain (n + 1) r s = t := by
  rw [drain, h]
  rfl

/-- A result that the run takes without asking for another movement. -/
theorem deliver_taken {s t : State} {r : MoveResult} (h : takeResult r s = going t) :
    deliver { state := s, result := some r } = t := drain_going h _

/-- R109: a fault with no movement of a run in progress. -/
theorem deliver_takeFault_alone (kind : FaultKind) {s : State}
    (h : s.gauging.run.state ≠ .running ∧ s.gauging.run.state ≠ .returning ∨ ∀ m, s.cable.activity ≠ .moving m) :
    deliver (takeFault kind s) = (s.setCable (s.halted kind)).raise .carriageFault := by
  rw [← takeFault_state]
  cases ha : s.cable.activity with
  | moving m =>
    have unheard := h.resolve_right fun still => still m ha
    have ends : takeFault kind s = { state := (takeFault kind s).state, result := some .faulted } := by
      unfold takeFault
      rw [ha]
    rw [ends]
    exact deliver_taken (takeResult_ignored _ unheard)
  | homing p =>
    have goes : (takeFault kind s).result = none := by
      unfold takeFault
      rw [ha]
    unfold deliver
    rw [goes]
  | idle =>
    have goes : (takeFault kind s).result = none := by
      unfold takeFault
      rw [ha]
    unfold deliver
    rw [goes]

/-- R109, R135: a fault that ends the movement of a run. -/
theorem deliver_takeFault_ends (kind : FaultKind) {s : State} {m : Movement}
    (run : s.gauging.run.state = .running ∨ s.gauging.run.state = .returning) (moving : s.cable.activity = .moving m) :
    deliver (takeFault kind s) = faultedEnd ((s.setCable (s.halted kind)).raise .carriageFault) := by
  have ends : takeFault kind s = { state := (takeFault kind s).state, result := some .faulted } := by
    unfold takeFault
    rw [moving]
  rw [ends, takeFault_state]
  exact deliver_taken (takeResult_faulted run)

/-- R135: the record of a run that a fault ends. -/
def faultedRecord (s : State) (kind : FaultKind) (run : RunRecord) : RunRecord :=
  { (match run.endReason with
      | none => { run with endReason := some kind.endReason, endTime := some s.clock, endStage := s.stage.record.stage }
      | some _ => { run with fault := some kind.runFault }) with
    state := .aborted, step := none, current := none, triggerMet := none, waitRemaining := none }

theorem faultedEnd_halted (kind : FaultKind) (s : State) :
    faultedEnd ((s.setCable (s.halted kind)).raise .carriageFault) =
      { s with
        cable := s.halted kind,
        gauging := { s.gauging with run := faultedRecord s kind s.gauging.run, visit := [], dwell := none },
        port := { s.port with attention := s.port.attention ||| 0xC00 } } := by
  have raised : ((s.port.attention ||| 0x800) ||| 0x400 : BitVec 12) = s.port.attention ||| 0xC00 := by
    rw [BitVec.or_assoc]
    rfl
  unfold faultedEnd faultedRecord endRun
  rw [show ((s.setCable (s.halted kind)).raise .carriageFault).cable.lastFault = some _ from rfl]
  rw [show ((s.setCable (s.halted kind)).raise .carriageFault).run = s.gauging.run from rfl]
  cases ended : s.gauging.run.endReason with
  | none =>
    dsimp only
    rw [← raised] <;> rfl
  | some r =>
    dsimp only
    rw [← raised, ← ended] <;> rfl

end Sys2Proof.Machine

open Sys2Proof Sys2Proof.Machine

/-- Settles O44: the checks of HOME CARRIAGE, then the phase that Top and Home ask for. -/
theorem homeCarriageBeginsHoming : Obligations.HomeCarriageBeginsHoming := by
  intro s running heard empty c under traverse hoist begun
  have l : Listens s := ⟨running, heard, empty⟩
  refine ⟨fun unfitted => ?unfitted, fun strap => ⟨fun locked => ?locked, fun free ready => ?_⟩⟩
  case unfitted =>
    refine l.exec_refused .homeCarriage (why := .notFitted) (detail := 0) (by decide) ?_
    exact if_pos (by rw [fitted_iff, unfitted]; decide)
  case locked =>
    exact l.exec_refused .homeCarriage (why := .wrongState) (detail := 0) (by decide)
      (homeCarriage_locked ((fitted_iff s).mpr strap) locked)
  have begins := homeCarriage_begins ((fitted_iff s).mpr strap) free ready
  have taken : ∀ {t : State}, beginHoming s = t → exec (.homeCarriage []) s = .next (t.answered .accepted 0x38 []) :=
    fun e => by
      rw [e] at begins
      exact l.exec_accepted .homeCarriage (by decide) begins
  exact ⟨fun top => taken (beginHoming_raise top),
    fun top home => taken ((beginHoming_next top).trans (afterRaisePhase_find (s := s.homingBegun) top home)),
    fun top home free => taken ((beginHoming_next top).trans
      (afterRaisePhase_release (s := s.homingBegun) top home ((inhibited_eq_false s).mpr free))),
    fun top home held => taken ((beginHoming_next top).trans
      (afterRaisePhase_parked (s := s.homingBegun) home ((inhibited_iff s).mpr held)))⟩

/-- Settles O46: each event is its test on the cableway, which with nothing in progress ends nothing; a fault is taken
of a drive that is on, and ends the run whose movement it ends. -/
theorem cablewayLineEvents : Obligations.CablewayLineEvents := by
  intro s running c run duty traversing hoisting mayTraverse mayHoist
  have goes : ∀ {act : State → Moved} {t : State}, act s = going t → unlessHeld (fun s => deliver (act s)) s = .next t :=
    fun e => (unlessHeld_running _ running).trans (congrArg _ (congrArg deliver e))
  have goesTo : ∀ {x : Cableway}, s.atBoundary = x →
      s.asserted .snag = false ∨ (x.traverse.on = false ∧ x.hoist.on = false) → x.contacts = c.contacts →
      exec .drivePeriodBoundary s = .next { s with cable := x } := fun e h contacts =>
    goes (act := drivePeriodBoundary) (drivePeriodBoundary_goes e h contacts)
  have hoistStill : c.hoist.on = false → c.hoist.start = none →
      c.hoist.atBoundary s.mayHoist (s.setting .hoistDuty) = c.hoist := fun on start => atBoundary_off _ _ start on
  have traverseStill : c.traverse.on = false → c.traverse.start = none →
      c.traverse.atBoundary s.mayTraverse s.traverseDuty = c.traverse := fun on start => atBoundary_off _ _ start on
  have traverseStarts : ∀ {way}, c.traverse.start = some way → c.hoist.on = false → c.hoist.start = none →
      mayTraverse way → s.atBoundary = traversing way := fun start on none may => by
    rw [State.atBoundary, hoistStill on none, atBoundary_starts start ((mayTraverse_iff s _).mpr may)]
    rfl
  have hoistStarts : ∀ {way}, c.hoist.start = some way → c.traverse.on = false → c.traverse.start = none →
      mayHoist way → s.atBoundary = hoisting way := fun start on none may => by
    rw [State.atBoundary, traverseStill on none, atBoundary_starts start ((mayHoist_iff s _).mpr may)]
    rfl
  refine ⟨?off, ?traverse, ?hoist, ?traverseDuty, ?hoistDuty, ?counts, ?contacts, ?faults, ?noJam⟩
  case off =>
    intro traverse start hoist start'
    exact goesTo (x := c) (by rw [State.atBoundary, traverseStill traverse start, hoistStill hoist start']) (.inr ⟨traverse, hoist⟩) rfl
  case traverse =>
    refine fun way start on none => ⟨fun may snag => goesTo (traverseStarts start on none may) (.inl snag) rfl,
      fun off mayNot => goesTo (x := c) ?_ (.inr ⟨off, on⟩) rfl⟩
    rw [State.atBoundary, hoistStill on none, atBoundary_waits start (Bool.eq_false_iff.mpr fun may => mayNot ((mayTraverse_iff s _).mp may))]
  case hoist =>
    refine fun way start on none => ⟨fun may snag => goesTo (hoistStarts start on none may) (.inl snag) rfl,
      fun off mayNot => goesTo (x := c) ?_ (.inr ⟨on, off⟩) rfl⟩
    rw [State.atBoundary, traverseStill on none, atBoundary_waits start (Bool.eq_false_iff.mpr fun may => mayNot ((mayHoist_iff s _).mp may))]
  case traverseDuty =>
    intro on start off none snag
    refine goesTo ?_ (.inl snag) rfl
    rw [State.atBoundary, hoistStill off none, atBoundary_on _ _ start on]
    rfl
  case hoistDuty =>
    intro on start off none snag
    refine goesTo ?_ (.inl snag) rfl
    rw [State.atBoundary, traverseStill off none, atBoundary_on _ _ start on]
    rfl
  case counts =>
    intro e idle count jam
    by_cases both : e.changed = .both
    · have same : ∀ n, count n = n := fun n => if_pos both
      have kept : ∀ n, jam n = n := fun n => if_pos both
      rw [same, same, kept, kept]
      exact ⟨goes (act := traverseCountChange e) (traverseCountChange_both s both),
        goes (act := depthCountChange e) (depthCountChange_both s both)⟩
    · have moved : ∀ n, count n = movedCount e n := fun n => if_neg both
      have zero : ∀ n, jam n = 0 := fun n => if_neg both
      rw [moved, moved, zero, zero]
      exact ⟨goes (act := traverseCountChange e) ((traverseCountChange_moves both).trans (traverseTests_idle idle)),
        goes (act := depthCountChange e) ((depthCountChange_moves both).trans (hoistTests_idle idle))⟩
  case contacts =>
    intro k v idle on start jam hoist notHome
    exact goes (act := contactChange k v) (contactChange_still idle on start jam hoist notHome)
  case faults =>
    intro halted alone ended resting moving snags
    have aloneAt : ∀ {act : State → Moved} {kind : FaultKind} {x : Cableway}, act s = takeFault kind (s.setCable x) →
        (s.setCable x).halted kind = halted kind x → x.activity = c.activity → resting →
        unlessHeld (fun s => deliver (act s)) s = .next (alone kind x) := fun {act kind x} e h ha rests => by
      refine (unlessHeld_running _ running).trans (congrArg _ ((congrArg deliver e).trans ?_))
      rw [deliver_takeFault_alone kind (s := s.setCable x) (by rw [setCable_cable, ha]; exact rests), h]
      rfl
    have endedAt : ∀ {act : State → Moved} {kind : FaultKind} {x : Cableway}, act s = takeFault kind (s.setCable x) →
        (s.setCable x).halted kind = halted kind x → x.activity = c.activity → moving →
        unlessHeld (fun s => deliver (act s)) s = .next (ended kind x kind.endReason kind.runFault) :=
      fun {act kind x} e h ha ⟨run, m, hm⟩ => by
        refine (unlessHeld_running _ running).trans (congrArg _ ((congrArg deliver e).trans ?_))
        rw [deliver_takeFault_ends kind (s := s.setCable x) run (ha.trans hm), faultedEnd_halted, h]
        rfl
    have boundary : ∀ {x : Cableway}, s.atBoundary = x → s.asserted .snag = true →
        x.traverse.on = true ∨ x.hoist.on = true → x.contacts = c.contacts →
        drivePeriodBoundary s = takeFault .snag (s.setCable x) := fun e snag on contacts =>
      drivePeriodBoundary_snags e snag on contacts
    refine ⟨fun d on => ?jam, fun v changed active on => ?contact, fun way start off none may snag => ?traverse,
      fun way start off none may snag => ?hoist⟩
    case jam =>
      have jams : jamExpiry d s = takeFault (.jam d) (s.setCable c) := by
        cases d with
        | traverse => exact if_pos on
        | hoist => exact if_pos on
      exact ⟨aloneAt (act := jamExpiry d) jams rfl rfl, endedAt (act := jamExpiry d) jams rfl rfl⟩
    case contact =>
      have asserted : (s.setCable { c with contacts := { c.contacts with snag := v } }).asserted .snag = true :=
        (asserted_iff _ _).mpr active
      have taken : contactChange .snag v s =
          takeFault .snag (s.setCable { c with contacts := { c.contacts with snag := v } }) := by
        refine (contactChange_snag changed).trans (if_pos ?_)
        rw [Bool.and_eq_true, Bool.or_eq_true]
        exact ⟨asserted, on⟩
      exact ⟨aloneAt (act := contactChange .snag v) taken rfl rfl, endedAt (act := contactChange .snag v) taken rfl rfl⟩
    case traverse =>
      have taken := boundary (traverseStarts start off none may) snag (.inl rfl) rfl
      exact ⟨aloneAt (act := drivePeriodBoundary) taken rfl rfl, endedAt (act := drivePeriodBoundary) taken rfl rfl⟩
    case hoist =>
      have taken := boundary (hoistStarts start off none may) snag (.inr rfl) rfl
      exact ⟨aloneAt (act := drivePeriodBoundary) taken rfl rfl, endedAt (act := drivePeriodBoundary) taken rfl rfl⟩
  case noJam =>
    intro d off
    refine goes (act := jamExpiry d) ?_
    cases d with
    | traverse => exact if_neg (by rw [Bool.not_eq_true]; exact off)
    | hoist => exact if_neg (by rw [Bool.not_eq_true]; exact off)

end

section
/-! What the line events do to a movement in progress and to homing (R95 to R97, R99 to R105). -/

namespace Sys2Proof.Machine

/-! ### The tests on the traverse count (R94, R95, R100) -/

theorem arrivedAt_iff (s : State) (target : Int) (way : TraverseWay) : s.arrivedAt target way = true ↔
    (way = .outward ∧ target - 5 ≤ s.position) ∨ (way = .inward ∧ s.position ≤ target + 5) := by
  cases way
  · simp only [true_and, reduceCtorEq, false_and, or_false]
    exact decide_eq_true_iff
  · simp only [true_and, reduceCtorEq, false_and, false_or]
    exact decide_eq_true_iff

theorem nearTarget_eq (s : State) (target : Int) : s.nearTarget target =
    decide (((s.position - target).natAbs : Int) ≤ (s.settings.read .slowZone).toNat) :=
  decide_eq_decide.mpr Int.ofNat_le.symm

section
variable {s : State} {target : Int} {way : TraverseWay}

theorem traverseTests_arrives (traversing : s.cable.activity = .moving (.traverseTo target way))
    (arrived : s.arrivedAt target way = true) : traverseTests s = endMovement s .holding .arrived := by
  unfold traverseTests
  rw [traversing]
  exact if_pos arrived

theorem traverseTests_goes (traversing : s.cable.activity = .moving (.traverseTo target way))
    (short : ¬ s.arrivedAt target way = true) :
    traverseTests s = going (s.setCable { s.cable with slow := s.nearTarget target }) := by
  have aim : s.traverseTarget = some target := by rw [State.traverseTarget, traversing]
  unfold traverseTests
  rw [traversing]
  refine (if_neg short).trans (congrArg going ?_)
  rw [testSlowZone, aim]

end

theorem traverseTests_other {s : State} (notTraverse : ∀ target way, s.cable.activity ≠ .moving (.traverseTo target way))
    (notHome : s.cable.activity ≠ .moving .goHome) : traverseTests s = going s := by
  have none : s.traverseTarget = none := by
    unfold State.traverseTarget
    split
    · next h => exact absurd h (notTraverse _ _)
    · next h => exact absurd h notHome
    · rfl
  unfold traverseTests
  split
  · next h => exact absurd h (notTraverse _ _)
  · exact congrArg going (testSlowZone_none none)

theorem homeEdge_goHome {s : State} (h : s.cable.activity = .moving .goHome) :
    homeEdge s = endMovement (loadHome s) .parked .home := by
  unfold homeEdge
  rw [h]

theorem homeEdge_find {s : State} (h : s.cable.activity = .homing .find) :
    homeEdge s = going ((loadHome s).rest .parked) := by
  unfold homeEdge
  rw [h]

theorem homeEdge_other {s : State} (notHome : s.cable.activity ≠ .moving .goHome)
    (notFind : s.cable.activity ≠ .homing .find) : homeEdge s = traverseTests (loadHome s) := by
  unfold homeEdge
  split
  · next h => exact absurd h notHome
  · next h => exact absurd h notFind
  · rfl

/-! ### The ends of lowering and raising (R96, R102, R103) -/

section
variable {s : State} {target : Int} {stop wet : Bool} {start : Word}

theorem hoistTests_bottom (lowering : s.cable.activity = .moving (.lowerTo target stop start wet))
    (bottom : s.asserted .bottom = true) :
    hoistTests s = endMovement s .holding (.lowered (.bottomContact s.depth wet) stop) := by
  unfold hoistTests
  rw [lowering]
  exact if_pos bottom

theorem hoistTests_wet (lowering : s.cable.activity = .moving (.lowerTo target stop start true))
    (bottom : s.asserted .bottom = false) :
    hoistTests s = if target ≤ s.depth then endMovement s .holding (.lowered .reached stop) else going s := by
  unfold hoistTests
  rw [lowering]
  exact (if_neg (by rw [bottom]; decide)).trans (if_pos rfl)

theorem hoistTests_dry (lowering : s.cable.activity = .moving (.lowerTo target stop start false))
    (bottom : s.asserted .bottom = false) :
    hoistTests s = if s.searchCounts ≤ (s.cable.depthCount - start).toInt
      then endMovement s .holding (.lowered .noSurface stop) else going s := by
  unfold hoistTests
  rw [lowering]
  exact (if_neg (by rw [bottom]; decide)).trans (if_neg (by decide))

theorem hoistTests_raise (raising : s.cable.activity = .moving (.raiseTo target)) :
    hoistTests s = if s.depth ≤ target then endMovement s .holding .reached else going s := by
  unfold hoistTests
  rw [raising]

theorem hoistTests_top (raising : s.cable.activity = .moving .raiseToTop) (top : s.asserted .top = true) :
    hoistTests s = endMovement s .holding .atTop := by
  unfold hoistTests
  rw [raising]
  exact if_pos top

theorem wetEdge_lowering (lowering : s.cable.activity = .moving (.lowerTo target stop start wet)) :
    wetEdge s = hoistTests (s.setCable { s.cable with depthCount := 0, hoist := s.cable.hoist.turned,
                                                      activity := .moving (.lowerTo target stop start true) }) := by
  unfold wetEdge
  rw [lowering]

end

/-! ### The tests on asserted contacts (R97, R104, R105) -/

/-- The traverses whose direction a movement calls for. -/
def Traverses (a : Activity) (way : TraverseWay) : Prop :=
  (∃ target, a = .moving (.traverseTo target way)) ∨ a = .moving .goHome ∧ way = .inward

theorem Traverses.travelWay {a : Activity} {way : TraverseWay} (h : Traverses a way) : a.travelWay = some way := by
  rcases h with ⟨target, rfl⟩ | ⟨rfl, rfl⟩ <;> rfl

theorem contactEnds_traverse {s : State} {way : TraverseWay} (h : Traverses s.cable.activity way) :
    contactEnds s = carryTest s := by
  unfold contactEnds
  rcases h with ⟨target, h⟩ | ⟨h, rfl⟩ <;> rw [h]

section
variable {s : State} {way : TraverseWay}

theorem travel_recovers (released : s.asserted .top = false) (first : s.cable.recovering = false) :
    travel way s = s.setCable { s.cable.runHoist .up with recovering := true } := by
  unfold travel
  rw [if_neg (by rw [released]; decide)]
  exact if_neg (by rw [first, Bool.false_and]; decide)

/-- R104: Top released under a traverse begins the carry recovery. -/
theorem contactTests_released (h : Traverses s.cable.activity way) (released : s.asserted .top = false)
    (first : s.cable.recovering = false) :
    contactTests s = going (s.setCable { s.cable.runHoist .up with recovering := true }) := by
  have off : enforceCarry s = s.setCable { s.cable with traverse := s.cable.traverse.off } :=
    if_neg (by rw [released]; decide)
  unfold contactTests
  rw [off]
  have still : contactEnds (s.setCable { s.cable with traverse := s.cable.traverse.off }) = _ :=
    contactEnds_traverse (way := way) h
  rw [still, carryTest]
  have way' : (s.setCable { s.cable with traverse := s.cable.traverse.off }).cable.activity.travelWay = some way :=
    h.travelWay
  have released' : (s.setCable { s.cable with traverse := s.cable.traverse.off }).asserted .top = false := released
  rw [way']
  dsimp only
  rw [if_neg (by rw [released']; decide), if_neg (by rw [setCable_cable, first]; decide)]
  exact congrArg going (travel_recovers released' first)

/-- R104: Top asserted ends the carry recovery. -/
theorem contactTests_recovered (h : Traverses s.cable.activity way) (top : s.asserted .top = true)
    (recovering : s.cable.recovering = true) : contactTests s = resumeTravel way s := by
  unfold contactTests
  rw [enforceCarry_carried top, contactEnds_traverse h, carryTest, h.travelWay]
  exact (if_pos top).trans (if_pos recovering)

theorem resumeTravel_held (outward : way = .outward) (inhibited : s.inhibited = true) :
    resumeTravel way s = endMovement s .holding .inhibited := if_pos ⟨inhibited, outward⟩

theorem resumeTravel_goes (top : s.asserted .top = true) (free : way = .inward ∨ s.inhibited = false) :
    resumeTravel way s = going (s.setCable { s.cable.runTraverse way with recovering := false }) := by
  unfold resumeTravel
  rw [travel_carried way top]
  refine if_neg fun held => ?_
  rcases free with rfl | free
  · cases held.2
  · cases held.1.symm.trans free

end

/-- R102: Bottom asserted ends a lowering, whatever the carry law does to the traverse. -/
theorem contactTests_bottom {s : State} {target : Int} {stop wet : Bool} {start : Word}
    (lowering : s.cable.activity = .moving (.lowerTo target stop start wet)) (bottom : s.asserted .bottom = true) :
    contactTests s = endMovement s .holding (.lowered (.bottomContact s.depth wet) stop) := by
  have ends : ∀ u : State, u.cable.activity = s.cable.activity → u.asserted .bottom = true →
      contactEnds u = endMovement u .holding (.lowered (.bottomContact u.depth wet) stop) := fun u ha hb => by
    unfold contactEnds
    rw [ha, lowering]
    exact hoistTests_bottom (ha.trans lowering) hb
  unfold contactTests enforceCarry
  split
  · exact ends s rfl bottom
  · exact ends (s.setCable { s.cable with traverse := s.cable.traverse.off }) rfl bottom

/-- R103: Top asserted ends a raise to the top. -/
theorem contactTests_top {s : State} (raising : s.cable.activity = .moving .raiseToTop) (top : s.asserted .top = true) :
    contactTests s = endMovement s .holding .atTop := by
  unfold contactTests
  rw [enforceCarry_carried top]
  unfold contactEnds
  rw [raising]
  exact hoistTests_top raising top

/-- R105: Top asserted ends the first phase of homing. -/
theorem contactTests_raisePhase {s : State} (raising : s.cable.activity = .homing .raise) (top : s.asserted .top = true) :
    contactTests s = going (afterRaisePhase s) := by
  unfold contactTests
  rw [enforceCarry_carried top]
  unfold contactEnds
  rw [raising]
  exact congrArg going (if_pos top)

/-- R105: Home released ends the second phase of homing. -/
theorem contactTests_releasePhase {s : State} (releasing : s.cable.activity = .homing .release)
    (top : s.asserted .top = true) (home : ¬ s.asserted .home = true) :
    contactTests s = going (s.setCable
      { { s.cable with activity := .homing .find }.runTraverse .inward with recovering := false }) := by
  unfold contactTests
  rw [enforceCarry_carried top]
  unfold contactEnds
  rw [releasing]
  refine (if_neg home).trans (congrArg going ?_)
  have carried : (s.setCable { s.cable with activity := .homing .find }).asserted .top = true := top
  exact travel_carried _ carried

end Sys2Proof.Machine

open Sys2Proof Sys2Proof.Machine

/-- Settles O47: each event makes the tests of what is in progress, on the counters and levels that it leaves. -/
theorem movementsEndAtLineEvents : Obligations.MovementsEndAtLineEvents := by
  intro s running c off ends goesOn asserts releases positionOf depthOf arrived slow
  have exec_goes : ∀ {act : State → Moved} {x : Cableway}, act s = going (s.setCable x) →
      unlessHeld (deliver ∘ act) s = .next { s with cable := x } :=
    fun e => (unlessHeld_running _ running).trans (congrArg _ (congrArg deliver e))
  have exec_ends : ∀ {act : State → Moved} {x : Cableway} {state : CarriageState} {r : MoveResult},
      act s = endMovement (s.setCable x) state r →
      unlessHeld (deliver ∘ act) s = .next (deliver
        { state := { s with cable := { off x with state := state, activity := .idle } }, result := some r }) :=
    fun e => (unlessHeld_running _ running).trans (congrArg _ (congrArg deliver e))
  have nowAsserted : ∀ {k v}, asserts k v → (s.withContact k v).asserted k = true := fun {k v} h => by
    rw [asserted_iff]
    refine Eq.trans ?_ h.2
    cases k <;> rfl
  have nowReleased : ∀ {k v}, releases k v → ¬ (s.withContact k v).asserted k = true := fun {k v} h => by
    rw [asserted_iff]
    intro e
    refine h.2 (Eq.trans ?_ e)
    cases k <;> rfl
  have testsEnd : ∀ {act : State → Moved} {x : Cableway} {target : Int} {way : TraverseWay},
      act s = traverseTests (s.setCable x) →
      x.activity = .moving (.traverseTo target way) →
      (arrived target way (positionOf x.traverseCount) → unlessHeld (deliver ∘ act) s =
        .next (deliver { state := { s with cable := { off x with state := .holding, activity := .idle } },
                          result := some .arrived })) ∧
      (¬ arrived target way (positionOf x.traverseCount) → unlessHeld (deliver ∘ act) s =
        .next { s with cable := { x with slow := slow target (positionOf x.traverseCount) } }) :=
    fun {act x target way} e moving => by
    have arrival : (s.setCable x).arrivedAt target way = true ↔ arrived target way (positionOf x.traverseCount) :=
      arrivedAt_iff _ _ _
    have zone : (s.setCable x).nearTarget target = slow target (positionOf x.traverseCount) := nearTarget_eq _ _
    refine ⟨fun h => exec_ends (e.trans (traverseTests_arrives moving (arrival.mpr h))),
      fun h => exec_goes ((e.trans (traverseTests_goes moving fun a => h (arrival.mp a))).trans ?_)⟩
    rw [zone]
    rfl
  refine ⟨?homeEdge, ?count, ?depth, ?lowering, ?topEdge, ?carry, ?raisePhase, ?releasePhase⟩
  case homeEdge =>
    intro v change x
    have edge : contactChange .home v s = homeEdge (s.withContact .home v) :=
      contactChange_home_asserts change.1 (nowAsserted change)
    refine ⟨fun goHome => exec_ends (x := x) (edge.trans (homeEdge_goHome goHome)),
      fun find => exec_goes (edge.trans (homeEdge_find find)), fun target way traversing => ?_,
      fun notTraverse notHome notFind => ?_⟩
    · exact testsEnd (x := x) (edge.trans (homeEdge_other (s := s.withContact .home v)
        (fun h => by cases h.symm.trans traversing) fun h => by cases h.symm.trans traversing)) traversing
    · exact exec_goes (x := x) ((edge.trans (homeEdge_other (s := s.withContact .home v) notHome notFind)).trans
        (traverseTests_other (s := loadHome (s.withContact .home v)) notTraverse notHome))
  case count =>
    intro e target way single traversing count x
    exact testsEnd (x := x) (traverseCountChange_moves single) traversing
  case depth =>
    intro e single count x i
    have tests : depthCountChange e s = hoistTests (s.setCable x) := depthCountChange_moves single
    refine ⟨fun target stop start wet lowering => ?_, fun target raising => ?_⟩
    · intro lost
      have moving : (s.setCable x).cable.activity = .moving (.lowerTo target stop start wet) := lowering
      refine ⟨fun bottom => exec_ends (x := x) (tests.trans (hoistTests_bottom moving bottom)),
        fun bottom isWet h => ?_, fun bottom dry h => ?_, fun bottom h => ?_⟩
      · subst isWet
        exact exec_ends (x := x) (tests.trans ((hoistTests_wet moving bottom).trans (if_pos h)))
      · subst dry
        exact exec_ends (x := x) (tests.trans ((hoistTests_dry moving bottom).trans (if_pos h)))
      · rcases h with ⟨isWet, short⟩ | ⟨dry, found⟩
        · subst isWet
          exact exec_goes (x := x) (tests.trans ((hoistTests_wet moving bottom).trans (if_neg (not_le.mpr short))))
        · subst dry
          exact exec_goes (x := x) (tests.trans ((hoistTests_dry moving bottom).trans (if_neg found)))
    · have moving : (s.setCable x).cable.activity = .moving (.raiseTo target) := raising
      exact ⟨fun h => exec_ends (x := x) (tests.trans ((hoistTests_raise moving).trans (if_pos h))),
        fun h => exec_goes (x := x) (tests.trans ((hoistTests_raise moving).trans (if_neg (not_le.mpr h))))⟩
  case lowering =>
    intro target stop start wet lowering
    refine ⟨fun v change state => ?_, fun v change => exec_ends ((contactChange_bottom change.1).trans
      (contactTests_bottom (s := s.withContact .bottom v) lowering (nowAsserted change)))⟩
    intro x
    have tests : contactChange .surface v s = hoistTests (s.setCable x) :=
      (contactChange_wets change.1 ⟨nowAsserted change, state⟩).trans
        (wetEdge_lowering (s := s.withContact .surface v) lowering)
    have moving : (s.setCable x).cable.activity = .moving (.lowerTo target stop start true) := rfl
    exact ⟨fun bottom => exec_ends (x := x) (tests.trans (hoistTests_bottom moving bottom)),
      fun bottom h => exec_ends (x := x) (tests.trans ((hoistTests_wet moving bottom).trans (if_pos h))),
      fun bottom h => exec_goes (x := x) (tests.trans ((hoistTests_wet moving bottom).trans (if_neg (not_le.mpr h))))⟩
  case topEdge =>
    intro v change raising
    exact exec_ends ((contactChange_top change.1).trans
      (contactTests_top (s := s.withContact .top v) raising (nowAsserted change)))
  case carry =>
    intro way traverses
    refine ⟨fun v change first => ?_, fun v change recovering => ?_⟩
    · exact exec_goes ((contactChange_top change.1).trans (contactTests_released (s := s.withContact .top v) traverses
        (Bool.eq_false_iff.mpr (nowReleased change)) first))
    · intro x
      have resumes := (contactChange_top change.1).trans
        (contactTests_recovered (s := s.withContact .top v) traverses (nowAsserted change) recovering)
      exact ⟨fun outward held => exec_ends (x := x) (resumes.trans
          (resumeTravel_held outward ((inhibited_iff s).mpr held))),
        fun free => exec_goes (resumes.trans (resumeTravel_goes (nowAsserted change)
          (free.imp_right (inhibited_eq_false s).mpr)))⟩
  case raisePhase =>
    intro v change raising x
    have ended := (contactChange_top change.1).trans
      (contactTests_raisePhase (s := s.withContact .top v) raising (nowAsserted change))
    exact ⟨fun home => exec_goes (ended.trans (congrArg going
        (afterRaisePhase_find (s := s.withContact .top v) (nowAsserted change) home))),
      fun home free => exec_goes (ended.trans (congrArg going
        (afterRaisePhase_release (s := s.withContact .top v) (nowAsserted change) home ((inhibited_eq_false s).mpr free)))),
      fun home held => exec_goes (ended.trans (congrArg going
        (afterRaisePhase_parked (s := s.withContact .top v) home ((inhibited_iff s).mpr held))))⟩
  case releasePhase =>
    intro v change releasing top
    exact exec_goes ((contactChange_home_releases change.1 (nowReleased change)).trans
      (contactTests_releasePhase (s := s.withContact .home v) releasing top (nowReleased change)))

end

section
/-! The output lines as readings of the records (12.4, R175, R190), and the siren patterns (R161). -/

namespace Sys2Proof.Machine

/-! ### The attention line (R175) -/

theorem highWhen_eq_high (b : Bool) : highWhen b = .high ↔ b = true := by cases b <;> decide

theorem highWhen_eq_low (b : Bool) : highWhen b = .low ↔ b = false := by cases b <;> decide

/-- 11.3: the reasons are the bits of the attention set. -/
theorem exists_reason_bit (k : Nat) (h : k < 12) : ∃ r : Reason, r.bit = k := by
  have all : ∀ k : Fin 12, ∃ r ∈ [Reason.started, .answerReady, .overrun, .channelChanged, .stageLost, .ratingAdopted,
      .ratingRejected, .ruleTripped, .ruleCleared, .runStarted, .runEnded, .carriageFault], r.bit = k.val := by decide
  obtain ⟨r, -, hr⟩ := all ⟨k, h⟩
  exact ⟨r, hr⟩

/-- Two sets of reasons meet exactly when both hold a reason. -/
theorem and_ne_zero_iff (a b : BitVec 12) : a &&& b ≠ 0 ↔ ∃ r, holdsReason a r = true ∧ holdsReason b r = true := by
  constructor
  · intro h
    by_contra none
    refine h (BitVec.eq_of_getLsbD_eq fun k hk => ?_)
    obtain ⟨r, rfl⟩ := exists_reason_bit k hk
    have apart : ¬ (a.getLsbD r.bit = true ∧ b.getLsbD r.bit = true) := fun both => none ⟨r, both⟩
    rw [BitVec.getLsbD_and, show (0 : BitVec 12).getLsbD r.bit = false from BitVec.getLsbD_zero]
    exact Bool.eq_false_iff.mpr fun h => apart (Bool.and_eq_true_iff.mp h)
  · rintro ⟨r, ha, hb⟩ h
    have meets : (a &&& b).getLsbD r.bit = true := (BitVec.getLsbD_and).trans (Bool.and_eq_true_iff.mpr ⟨ha, hb⟩)
    rw [h] at meets
    exact Bool.false_ne_true (BitVec.getLsbD_zero.symm.trans meets)

theorem attnLow_iff {s : State} (running : s.resetHeld = false) :
    s.attnLow = true ↔ s.attends .answerReady = true ∨ s.port.attention &&& s.port.mask ≠ 0 := by
  unfold State.attnLow
  rw [running, Bool.not_false, Bool.true_and, Bool.or_eq_true, bne_iff_ne]

/-! ### The lines that read the effects (R158, R162, R163) -/

/-- R158: an item is present exactly when a rule gives it. -/
theorem contributors_ne_nil (t : RuleTable) (gives : Rule → Bool) :
    t.contributors gives ≠ [] ↔ ∃ k r, t.get k = some r ∧ gives r = true := by
  rw [RuleTable.contributors_eq, Ne, List.map_eq_nil_iff, List.filter_eq_nil_iff]
  constructor
  · intro h
    by_contra none
    refine h fun k _ given => ?_
    cases hk : t.get k with
    | none => rw [hk] at given; cases given
    | some r => rw [hk] at given; exact none ⟨k, r, hk, given⟩
  · rintro ⟨k, r, hk, given⟩ h
    exact h k (List.mem_finRange k) (by rw [hk]; exact given)

theorem anyRule_iff (t : RuleTable) (gives : Rule → Bool) :
    (t.toList.any fun r => (r.map gives).getD false) = true ↔ ∃ k r, t.get k = some r ∧ gives r = true := by
  rw [List.any_eq_true]
  constructor
  · rintro ⟨x, hx, given⟩
    obtain ⟨k, hk, rfl⟩ := List.getElem_of_mem hx
    rw [Vector.length_toList] at hk
    cases e : t.get ⟨k, hk⟩ with
    | none => rw [Vector.getElem_toList, show t[k] = none from e] at given; cases given
    | some r => rw [Vector.getElem_toList, show t[k] = some r from e] at given; exact ⟨⟨k, hk⟩, r, e, given⟩
  · rintro ⟨k, r, hk, given⟩
    refine ⟨some r, ?_, given⟩
    rw [← hk]
    exact Vector.mem_toList_iff.mpr (Vector.getElem_mem k.isLt)

theorem contributing_iff (r : Rule) :
    r.contributing = true ↔ r.state = .tripped ∨ r.state = .acknowledged ∨ r.state = .latched := by
  unfold Rule.contributing
  rw [Bool.or_eq_true, Bool.or_eq_true, beq_iff_eq, beq_iff_eq, beq_iff_eq, or_assoc]

theorem givesFlag_iff (flag : EffectFlags → Bool) (r : Rule) :
    r.givesFlag flag = true ↔ (r.state = .tripped ∨ r.state = .acknowledged) ∧ flag r.flags = true := by
  unfold Rule.givesFlag
  rw [Bool.and_eq_true, Bool.or_eq_true, beq_iff_eq, beq_iff_eq]

/-! ### The generator (R161) -/

/-- R161: what a forming of the effect set does to the pattern: one that wins anew starts On, none stops it Off, and
one that stays keeps its phase and the time in it. -/
def PatternCarried (w u : WarningUnit) : Prop :=
  (u.winning ≠ w.winning → (u.winning = .none → u.phase = .off) ∧
    (u.winning ≠ .none → u.phase = .on ∧ u.phaseElapsed = 0)) ∧
  (u.winning = w.winning → u.phase = w.phase ∧ u.phaseElapsed = w.phaseElapsed)

theorem patternCarried_refl (w : WarningUnit) : PatternCarried w w := ⟨fun h => absurd rfl h, fun _ => ⟨rfl, rfl⟩⟩

theorem firstPhase_of_ne_none {p : Siren} (h : p ≠ .none) : firstPhase p = .on := by
  cases p with
  | none => exact absurd rfl h
  | p1 | p2 | p3 => rfl

theorem patternCarried_form (w : WarningUnit) (rules : RuleTable) :
    PatternCarried w (WarningUnit.form { w with rules := rules }) := by
  obtain ⟨changed, kept⟩ := form_phase { w with rules := rules }
  refine ⟨fun h => ⟨fun none => ?_, fun some => ?_⟩, kept⟩
  · rw [(changed h).1, none]
    rfl
  · exact ⟨(changed h).1.trans (firstPhase_of_ne_none some), (changed h).2⟩

/-- The request that an owner takes leaves the pattern as the owner's state does. -/
theorem takeRequest_patternCarried {code : Byte} {p : List Byte} {own : List Byte → State → Taken} {s : State}
    (h : PatternCarried s.warning (own p s).state.warning) :
    PatternCarried s.warning (takeRequest code p own s).warning := by
  rcases takeRequest_cases code p own s with ⟨_, e⟩ | ⟨_, _, e⟩ | ⟨_, _, e⟩
  · rw [e]; exact patternCarried_refl _
  · rw [e]; exact patternCarried_refl _
  · rw [e]; exact h

theorem turned_patternCarried {taken : Taken} {s : State} (h : Turned taken s) :
    PatternCarried s.warning taken.state.warning := by
  rw [h.state]
  exact patternCarried_refl _

theorem takeRuleOut_patternCarried (k : Nat) (r : Rule) (after : Option Rule) (s : State) :
    PatternCarried s.warning (takeRuleOut k r after s).warning := by
  rw [takeRuleOut_warning]
  exact patternCarried_form _ _

theorem disarmRule_patternCarried (p : List Byte) (s : State) :
    PatternCarried s.warning (disarmRule p s).state.warning := by
  rcases disarmRule_cases p s with h | ⟨k, r, body, _, _, _, h⟩
  · exact turned_patternCarried h
  · rw [h]; exact takeRuleOut_patternCarried k r _ s

theorem retireRule_patternCarried (p : List Byte) (s : State) :
    PatternCarried s.warning (retireRule p s).state.warning := by
  rcases retireRule_cases p s with h | ⟨k, r, body, _, _, h⟩
  · exact turned_patternCarried h
  · rw [h]; exact takeRuleOut_patternCarried k r _ s

theorem acknowledge_patternCarried (p : List Byte) (s : State) :
    PatternCarried s.warning (acknowledge p s).state.warning := by
  rcases acknowledge_cases p s with h | ⟨k, r, r', body, _, _, _, h⟩
  · exact turned_patternCarried h
  · rw [h]
    refine (formEffects_warning _).symm ▸ ?_
    exact patternCarried_form _ _

theorem stageIntervalExpiry_patternCarried (s : State) :
    PatternCarried s.warning (stageIntervalExpiry s).warning := by
  rw [stageIntervalExpiry_warning]
  exact patternCarried_form _ _

theorem onSelectPeriod_patternCarried {act : State → State} {s t : State} (next : onSelectPeriod act s = .next t)
    (h : PatternCarried s.warning (act s).warning) : PatternCarried s.warning t.warning := by
  refine of_onSelectPeriod (P := fun t => PatternCarried s.warning t.warning) next (fun u h => ?_)
    (patternCarried_refl _) h
  rw [periodIgnored_warning]
  exact h

/-- The commands that form the effect set again carry the pattern. -/
theorem exec_patternCarried {c : Instr} {s t : State} (next : exec c s = .next t)
    (forming : c = .stageIntervalExpiry ∨ (∃ params, c = .acknowledge params) ∨ (∃ params, c = .disarmRule params) ∨
      ∃ params, c = .retireRule params) : PatternCarried s.warning t.warning := by
  rcases forming with rfl | ⟨p, rfl⟩ | ⟨p, rfl⟩ | ⟨p, rfl⟩
  · exact of_unlessHeld (P := fun t => PatternCarried s.warning t.warning) (act := stageIntervalExpiry) next
      (patternCarried_refl _) (stageIntervalExpiry_patternCarried s)
  · exact onSelectPeriod_patternCarried ((exec_ofRequest .acknowledge p s).symm.trans next)
      (takeRequest_patternCarried (acknowledge_patternCarried p s))
  · exact onSelectPeriod_patternCarried ((exec_ofRequest .disarmRule p s).symm.trans next)
      (takeRequest_patternCarried (disarmRule_patternCarried p s))
  · exact onSelectPeriod_patternCarried ((exec_ofRequest .retireRule p s).symm.trans next)
      (takeRequest_patternCarried (retireRule_patternCarried p s))

end Sys2Proof.Machine

open Sys2Proof Sys2Proof.Machine

/-- Settles O59: the phase end by cases of the winning pattern; the other commands leave the Warning Unit, or leave it
formed from other rules. -/
theorem phaseEndTurnsThePattern : Obligations.PhaseEndTurnsThePattern := by
  refine ⟨fun s running => ⟨fun turning => ?_, fun still => ?_⟩, fun c s forming => ?_⟩
  · refine (unlessHeld_running patternPhaseEnd running).trans (congrArg _ ?_)
    have turns : s.warning.phase.turn = if s.warning.phase = .on then .off else .on := by
      cases s.warning.phase <;> rfl
    unfold patternPhaseEnd
    rw [turns]
    rcases turning with e | e <;> rw [e] <;> rfl
  · refine (unlessHeld_running patternPhaseEnd running).trans (congrArg _ ?_)
    unfold patternPhaseEnd
    rcases still with e | e <;> rw [e]
  · obtain ⟨t, ht⟩ := exec_next c s
    exact ⟨t, ht, exec_patternCarried ht forming⟩

/-- Settles O60: the definition of the lines, with the reasons as the bits of the attention set and the items of the
effect set as what the rules give. -/
theorem outputLinesFollowTheRecords : Obligations.OutputLinesFollowTheRecords := by
  intro s
  refine ⟨fun held => if_pos held, fun running => ?_⟩
  have lines : s.lines = _ := if_neg (Bool.eq_false_iff.mp running)
  rw [lines]
  have attn : highWhen (!s.attnLow) = .low ↔
      s.attends .answerReady = true ∨ s.port.attention &&& s.port.mask ≠ 0 := by
    rw [highWhen_eq_low, Bool.not_eq_false', attnLow_iff running]
  refine ⟨rfl, attn, ?reasons, rfl, rfl, ?traverseDir, ?hoistDir, ?strap, ?siren, highWhen_eq_high _,
    highWhen_eq_high _, fun effects => ⟨?beacon, ?remote⟩⟩
  case reasons =>
    rw [attn, and_ne_zero_iff]
    constructor
    · rintro (ready | ⟨r, present, enabled⟩)
      · exact ⟨.answerReady, ready, Or.inl rfl⟩
      · exact ⟨r, present, Or.inr enabled⟩
    · rintro ⟨r, present, rfl | enabled⟩
      · exact Or.inl present
      · exact Or.inr ⟨r, present, enabled⟩
  case traverseDir => rw [highWhen_eq_high, beq_iff_eq]
  case hoistDir => rw [highWhen_eq_high, beq_iff_eq]
  case strap =>
    intro unfitted law
    have notFitted : s.fitted = false := by rw [State.fitted, unfitted]; rfl
    obtain ⟨traverseOff, hoistOff, inward, up⟩ := law notFitted
    rw [traverseOff, hoistOff, inward, up]
    exact ⟨rfl, rfl, rfl, rfl⟩
  case siren =>
    rw [highWhen_eq_high, WarningUnit.siren, Bool.and_eq_true, bne_iff_ne, beq_iff_eq]
  case beacon =>
    obtain ⟨-, -, -, beacon, -⟩ := effects
    rw [highWhen_eq_high, beacon, anyRule_iff]
    exact exists_congr fun k => exists_congr fun r => and_congr_right fun _ => contributing_iff r
  case remote =>
    obtain ⟨formed, -, -, -, remote⟩ := effects
    have present : (!s.warning.effects.remoteLine.isEmpty) = true ↔ s.warning.effects.remoteLine ≠ [] := by
      rw [Bool.not_eq_true', List.isEmpty_eq_false_iff]
    rw [highWhen_eq_high, remote, present, formed]
    exact (contributors_ne_nil _ _).trans
      (exists_congr fun k => exists_congr fun r => and_congr_right fun _ => givesFlag_iff _ r)

end

section
/-! The dwell of a run (R115, R126 to R128): the entry in progress as the last of the results, the next point asked for,
and the weight stowed after the last. -/

namespace Sys2Proof.Machine

/-! ### The entry in progress (R119) -/

section
variable {s : State} {es : List Entry} {e : Entry}

theorem entry_last (results : s.gauging.run.results = es ++ [e]) : s.entry = some e := by
  unfold State.entry State.run
  rw [results, List.getLast?_append_of_ne_nil _ (List.cons_ne_nil e [])]
  rfl

/-- The verticals and the current index give the vertical in progress. -/
theorem vertical_current {i : Nat} {v : Vertical} (current : s.gauging.run.current = some i)
    (vertical : s.verticals[i]? = some v) : (s.run.current.bind fun i => s.verticals[i]?) = some v := by
  unfold State.run
  rw [current]
  exact vertical

/-- Two changes of the entry in progress are one. -/
theorem updateEntry_updateEntry (f g : Entry → Entry) (results : s.gauging.run.results = es ++ [e]) :
    (s.updateEntry f).updateEntry g = s.updateEntry fun x => g (f x) := by
  rw [updateEntry_last f results, updateEntry_last (s := s.setRun _) (es := es) (e := f e) g rfl,
    updateEntry_last _ results]
  rfl

/-- R127: a point of the plan that is still to come is asked for. -/
theorem placeNext_asks {i : Nat} {v : Vertical} {fraction used : Int} (results : s.gauging.run.results = es ++ [e])
    (current : s.gauging.run.current = some i) (vertical : s.verticals[i]? = some v)
    (next : v.plan.fractions[e.points.length]? = some fraction) (depth : e.depthUsed = some used) :
    placeNext s = ask .place (.raiseTo (pointDepth used fraction)) s := by
  unfold placeNext
  rw [entry_last results, vertical_current current vertical]
  dsimp only
  rw [next, depth]

/-! ### The points of a dwell (R126 to R128) -/

theorem recordPoint_surface {d : Dwell} (surface : d.surface = true) :
    recordPoint d s = stow (s.updateEntry fun e =>
      { e with points := [scaledVelocity (s.setting .surfaceCoefficient) (pointVelocity s.gauging.meter d)],
               mean := some (scaledVelocity (s.setting .surfaceCoefficient) (pointVelocity s.gauging.meter d)),
               surfaceOnly := true, depthUsed := some s.gauging.arrivalDepth }) := if_pos surface

variable {d : Dwell} {i : Nat} {v : Vertical}

/-- The results once a dwell has given its point. -/
def State.withPoint (s : State) (velocity : Int) : State :=
  s.updateEntry fun e => { e with points := e.points ++ [velocity] }

theorem withPoint_results (velocity : Int) (results : s.gauging.run.results = es ++ [e]) :
    (s.withPoint velocity).gauging.run.results = es ++ [{ e with points := e.points ++ [velocity] }] := by
  unfold State.withPoint
  rw [updateEntry_last _ results]
  rfl

theorem withPoint_last (velocity : Int) (results : s.gauging.run.results = es ++ [e]) :
    s.withPoint velocity = s.setRun { s.run with results := es ++ [{ e with points := e.points ++ [velocity] }] } :=
  updateEntry_last _ results

theorem recordPoint_deep (deep : d.surface = false) (results : s.gauging.run.results = es ++ [e])
    (current : s.gauging.run.current = some i) (vertical : s.verticals[i]? = some v) :
    recordPoint d s =
      if e.points.length + 1 < v.plan.fractions.length then placeNext (s.withPoint (pointVelocity s.gauging.meter d))
      else stow ((s.withPoint (pointVelocity s.gauging.meter d)).updateEntry
        fun e => { e with mean := meanVelocity e.points }) := by
  have entry := entry_last (withPoint_results (pointVelocity s.gauging.meter d) results)
  have vertical' : ((s.withPoint (pointVelocity s.gauging.meter d)).run.current.bind fun i =>
      (s.withPoint (pointVelocity s.gauging.meter d)).verticals[i]?) = some v := vertical_current current vertical
  unfold recordPoint
  refine (if_neg (by rw [deep]; decide)).trans ?_
  change (match (s.withPoint (pointVelocity s.gauging.meter d)).entry,
    (s.withPoint (pointVelocity s.gauging.meter d)).run.current.bind fun i =>
      (s.withPoint (pointVelocity s.gauging.meter d)).verticals[i]? with
    | some e, some vertical => _
    | _, _ => _) = _
  rw [entry, vertical']
  dsimp only
  rw [List.length_append]
  rfl

end

/-! ### After the dwell -/

/-- R127, R128: the dwell is over and the weight is on its way up under a step, with the results written. -/
def State.raisedAfterDwell (s : State) (step : Step) (movement : Movement) (results : List Entry) : State :=
  { s with
    gauging := { s.gauging with dwell := none, run := { s.gauging.run with step := some step, results := results } },
    cable := { s.cable with
      state := .raising, activity := .moving movement,
      traverse := { s.cable.traverse with on := false, start := none, jam := 0 },
      hoist := { s.cable.hoist with on := false, start := some .up, jam := 0 } } }

section
variable {s : State} {es : List Entry} {e : Entry}

/-- R115: the unit with the dwell over. -/
def State.dwellOver (s : State) : State := s.setGauging { s.gauging with dwell := none }

theorem dwellExpiry_dwelling {d : Dwell} (dwelling : s.gauging.dwell = some d) :
    dwellExpiry s = deliver (recordPoint d s.dwellOver) := by
  unfold dwellExpiry
  rw [dwelling]
  rfl

theorem dwellExpiry_none (h : s.gauging.dwell = none) : dwellExpiry s = s := by
  unfold dwellExpiry
  rw [h]

theorem meterPulse_dwelling {d : Dwell} (dwelling : s.gauging.dwell = some d) :
    meterPulse s = s.setGauging { s.gauging with dwell := some { d with pulses := d.pulses + 1 } } := by
  unfold meterPulse
  rw [dwelling]

theorem meterPulse_none (h : s.gauging.dwell = none) : meterPulse s = s := by
  unfold meterPulse
  rw [h]


/-- R128: the entry changed and the weight stowed. -/
theorem stow_afterDwell (holding : s.cable.state = .holding) (idle : s.cable.activity = .idle)
    (released : s.asserted .top = false) (f : Entry → Entry) (results : s.gauging.run.results = es ++ [e]) :
    deliver (stow (s.dwellOver.updateEntry f)) = s.raisedAfterDwell .stow .raiseToTop (es ++ [f e]) := by
  rw [updateEntry_last (s := s.dwellOver) f results, stow_raises (s := s.dwellOver.setRun _) holding idle released,
    deliver_going]
  rfl

/-- R127: the entry has its point and the next one is asked for. -/
theorem placeNext_afterDwell {i : Nat} {v : Vertical} {velocity fraction used : Int}
    (holding : s.cable.state = .holding) (idle : s.cable.activity = .idle)
    (results : s.gauging.run.results = es ++ [e]) (current : s.gauging.run.current = some i)
    (vertical : s.verticals[i]? = some v) (next : v.plan.fractions[e.points.length + 1]? = some fraction)
    (depth : e.depthUsed = some used) (below : pointDepth used fraction < s.depth) :
    deliver (placeNext (s.dwellOver.withPoint velocity)) =
      s.raisedAfterDwell .place (.raiseTo (pointDepth used fraction))
        (es ++ [{ e with points := e.points ++ [velocity] }]) := by
  have asked := placeNext_asks (s := s.dwellOver.withPoint velocity) (withPoint_results velocity results) current vertical
    (by rw [List.length_append]; exact next) depth
  rw [asked, withPoint_last (s := s.dwellOver) velocity results, ask,
    takeRaiseTo_raises (s := (s.dwellOver.setRun _).setStep .place) holding idle below, deliver_going]
  rfl

end

end Sys2Proof.Machine

open Sys2Proof Sys2Proof.Machine

/-- Settles O53: the velocity is the meter's, the entry in progress takes the point, and what the plan has left decides
between the next point and the stowing. -/
theorem dwellMeasuresAVelocity : Obligations.DwellMeasuresAVelocity := by
  intro s running
  refine ⟨fun d dwelling => ?pulse, fun none => ⟨?noPulse, ?noDwell⟩, ?expiry⟩
  case pulse =>
    exact (unlessHeld_running meterPulse running).trans (congrArg _ (meterPulse_dwelling dwelling))
  case noPulse => exact (unlessHeld_running meterPulse running).trans (congrArg _ (meterPulse_none none))
  case noDwell => exact (unlessHeld_running dwellExpiry running).trans (congrArg _ (dwellExpiry_none none))
  case expiry =>
    intro d es e i v dwelling results current vertical holding idle released m turns velocity raises finished
    have velocity_eq : pointVelocity s.gauging.meter d = velocity := rfl
    have expires : ∀ {t : State}, deliver (recordPoint d s.dwellOver) = t → exec .dwellExpiry s = .next t := fun h =>
      (unlessHeld_running dwellExpiry running).trans (congrArg _ ((dwellExpiry_dwelling dwelling).trans h))
    have records := fun deep => recordPoint_deep (s := s.dwellOver) (d := d) deep results current vertical
    have stows : ∀ {mean : Int}, d.surface = false → ¬ e.points.length + 1 < v.plan.fractions.length →
        meanVelocity (e.points ++ [velocity]) = some mean → finished mean := fun {mean} deep last value => by
      refine expires ?_
      rw [records deep, if_neg last]
      have stowed := stow_afterDwell (es := es) holding idle released
        (fun x => { x with points := x.points ++ [velocity], mean := meanVelocity (x.points ++ [velocity]) }) results
      rw [value] at stowed
      exact (congrArg (deliver ∘ stow) (updateEntry_updateEntry (s := s.dwellOver) _ _ results)).trans stowed
    refine ⟨fun deep points plan => ?_, fun deep first points plan => ?_, fun deep first second points plan => ?_,
      fun deep tenths used depth which below => ?_, fun surface => ?_⟩
    · exact stows deep (by rw [points, plan]; decide) (by rw [points]; rfl)
    · exact stows deep (by rw [points, plan]; exact lt_irrefl 2) (by rw [points]; rfl)
    · exact stows deep (by rw [points, plan]; exact lt_irrefl 3) (by rw [points]; rfl)
    · have next : v.plan.fractions[e.points.length + 1]? = some tenths := by
        rcases which with ⟨plan, count, rfl⟩ | ⟨plan, count, rfl⟩ | ⟨plan, count, rfl⟩ <;> rw [plan, count] <;> rfl
      have more : e.points.length + 1 < v.plan.fractions.length := (List.getElem?_eq_some_iff.mp next).1
      refine expires ?_
      rw [records deep, if_pos more]
      exact placeNext_afterDwell holding idle results current vertical next depth below
    · refine expires ?_
      rw [recordPoint_surface surface]
      exact stow_afterDwell holding idle released _ results

end

section
/-! RESTART (R57, R99, R113, R136, R183): the cableway stopped, the run ended, the adoption abandoned, and the cursor and
the attention set emptied. -/

namespace Sys2Proof.Machine

theorem restart_takes (s : State) : restart [] s = done (restartBlocks s) [] := rfl

/-- R99, R183: whatever the result handed over did, the run is left as RESTART leaves it on the stopped cableway. -/
theorem restartBlocks_eq (s : State) : restartBlocks s =
    ((abandonAdoption (restartRun (restartCable s).state)).setCursor Cursor.reset).setAttention 0 := by
  unfold restartBlocks
  rw [restartRun_cable]

/-- R136: the run that RESTART leaves. -/
def State.restartedRun (s : State) : GaugingUnit :=
  if s.gauging.run.state = .armed ∨ s.gauging.run.state = .running ∨ s.gauging.run.state = .returning then
    { s.gauging with
      run := { s.gauging.run with
        state := .aborted, endReason := some (s.gauging.run.endReason.getD .restarted),
        endTime := some (s.gauging.run.endTime.getD s.clock),
        endStage := s.gauging.run.endStage.or s.stage.record.stage,
        step := none, current := none, triggerMet := none, waitRemaining := none },
      visit := [], dwell := none }
  else s.gauging

theorem restartRun_gauging (s : State) : (restartRun s).gauging = s.restartedRun := by
  unfold State.restartedRun
  by_cases underWay : s.gauging.run.state = .armed ∨ s.gauging.run.state = .running ∨ s.gauging.run.state = .returning
  · rw [if_pos underWay, restartRun_ends underWay, Option.or_some, Option.or_some]
    rfl
  · rw [if_neg underWay, restartRun_over underWay]

/-- R136: RESTART of the run changes the run and the attention set. -/
theorem restartRun_leaves (s : State) :
    ∃ attention, restartRun s = ((s.setGauging (restartRun s).gauging).setAttention attention) := by
  by_cases underWay : s.gauging.run.state = .armed ∨ s.gauging.run.state = .running ∨ s.gauging.run.state = .returning
  · rw [restartRun_ends underWay]
    exact ⟨_, rfl⟩
  · rw [restartRun_over underWay]
    exact ⟨s.port.attention, rfl⟩

end Sys2Proof.Machine

open Sys2Proof Sys2Proof.Machine

/-- Settles O26: the stopped cableway's result changes nothing that RESTART does not set itself. -/
theorem restartEndsWhatIsUnderWay : Obligations.RestartEndsWhatIsUnderWay := by
  intro s running heard empty run stopped
  have l : Listens s := ⟨running, heard, empty⟩
  refine ⟨rfl, _, l.exec_done .restart (Nat.zero_le _) (restart_takes s), ?_⟩
  obtain ⟨attention, leaves⟩ := restartRun_leaves (restartCable s).state
  have gauging := restartRun_gauging (restartCable s).state
  have delivered : (restartRun (deliver (restartCable s))).gauging = (restartCable s).state.restartedRun :=
    (congrArg State.gauging (restartRun_cable s)).trans gauging
  rw [gauging] at leaves
  rw [delivered, restartBlocks_eq, leaves]
  refine ⟨?_, rfl, rfl, rfl, rfl, rfl, rfl, rfl, rfl, knownPosition_unhomed rfl, rfl, rfl⟩
  have raised : (0 : BitVec 12) ||| 0x002 = 0x002 := by decide
  change { s.port with
    slot := some { status := .done, code := 0x09, body := [] }, attention := 0 ||| 0x002,
    cursor := { table := .draft, index := 0, fields := [] }, sdo := .highImpedance } = _
  rw [raised]

end

section
/-! The abort of a run and its way home (R129, R132, R133): the chain of results that one instant can bring, followed
link by link. -/

namespace Sys2Proof.Machine

/-! ### Chains of results (R99) -/

/-- What a movement leaves leads to a state: it ended nothing, or each result it brings is taken in turn. -/
inductive Follows : Nat → Moved → State → Prop
  | going (k : Nat) (t : State) : Follows k (going t) t
  | result {k : Nat} {r : MoveResult} {s t : State} {m : Moved} (taken : takeResult r s = m) (rest : Follows k m t) :
      Follows (k + 1) { state := s, result := some r } t

theorem Follows.weaken {k : Nat} {m : Moved} {t : State} (h : Follows k m t) : Follows (k + 1) m t := by
  induction h with
  | going k t => exact .going (k + 1) t
  | result taken _ ih => exact .result taken ih

/-- A chain that fits the bound is drained to its end. -/
theorem Follows.deliver_drain {k : Nat} {m : Moved} {t : State} (h : Follows k m t) :
    (m.result = none → m.state = t) ∧ ∀ r n, m.result = some r → k ≤ n → drain n r m.state = t := by
  induction h with
  | going k t => exact ⟨fun _ => rfl, fun r n e => by cases e⟩
  | @result k r s t m taken rest ih =>
    refine ⟨fun e => (by cases e), fun q n e hn => ?_⟩
    injection e with e
    subst e
    obtain ⟨n, rfl⟩ : ∃ j, n = j + 1 := ⟨n - 1, by omega⟩
    unfold drain
    dsimp only
    rw [taken]
    cases result : m.result with
    | none => exact ih.1 result
    | some r' => exact ih.2 r' n result (by omega)

theorem Follows.deliver_eq {k : Nat} {m : Moved} {t : State} (h : Follows k m t) (few : k ≤ 8) : deliver m = t := by
  unfold deliver
  cases result : m.result with
  | none => exact h.deliver_drain.1 result
  | some r =>
    refine h.deliver_drain.2 r _ result ?_
    unfold chainLength
    omega

/-! ### The return (R129, R133) -/

/-- R133: the weight on its way up on the return. -/
def State.raisingHome (s : State) : State :=
  (s.setStep .returnRaise).setCable { s.cable.runHoist .up with state := .raising, activity := .moving .raiseToTop }

/-- R133: the carriage on its way home. -/
def State.headingHome (s : State) : State :=
  (s.setStep .returnHome).setCable { s.cable.runTraverse .inward with
    state := .traversing, activity := .moving .goHome, slow := s.nearTarget (s.setting .homeOffset),
    recovering := false }

/-- R133: the weight found up as the return is asked for. -/
def State.foundUp (s : State) : State :=
  ((s.setStep .returnRaise).setCable { s.cable.runHoist .up with
    state := .raising, activity := .moving .raiseToTop }).rest .holding

section
variable {s : State}

theorem askReturnRaise_raises (holding : s.cable.state = .holding) (idle : s.cable.activity = .idle)
    (released : s.asserted .top = false) : ask .returnRaise .raiseToTop s = going s.raisingHome :=
  takeRaiseToTop_raises (s := s.setStep .returnRaise) holding idle released

theorem askReturnRaise_atTop (holding : s.cable.state = .holding) (idle : s.cable.activity = .idle)
    (top : s.asserted .top = true) :
    ask .returnRaise .raiseToTop s = { state := s.foundUp, result := some .atTop } :=
  takeRaiseToTop_atTop (s := s.setStep .returnRaise) holding idle top

theorem askReturnHome_travels (holding : s.cable.state = .holding) (idle : s.cable.activity = .idle)
    (top : s.asserted .top = true) (away : s.asserted .home = false) :
    ask .returnHome .goHome s = going s.headingHome :=
  takeGoHome_travels (s := s.setStep .returnHome) holding idle top away

theorem askReturnHome_home (holding : s.cable.state = .holding) (idle : s.cable.activity = .idle)
    (home : s.asserted .home = true) :
    ask .returnHome .goHome s = endMovement (s.setStep .returnHome) .parked .home := by
  unfold ask takeMovement
  rw [if_neg (by rw [show (s.setStep .returnHome).cable.activity = .idle from idle]; decide),
    show (s.setStep .returnHome).cable.state = .holding from holding]
  exact if_pos (Or.inl home)

theorem takeResult_atTop (returning : s.run.state = .returning) (step : s.run.step = some .returnRaise) :
    takeResult .atTop s = ask .returnHome .goHome s := by
  unfold takeResult
  rw [returning, step]

theorem takeResult_home (returning : s.run.state = .returning) (step : s.run.step = some .returnHome) :
    takeResult .home s = going (finishReturn s) := by
  unfold takeResult
  rw [returning, step]

theorem takeResult_again {r : MoveResult} (returning : s.run.state = .returning) (step : s.run.step = some .returnRaise)
    (h : r = .reached ∨ r = .stopped ∨ r = .inhibited) : takeResult r s = ask .returnRaise .raiseToTop s := by
  unfold takeResult
  rcases h with rfl | rfl | rfl <;> rw [returning, step]

/-- R133: with the weight up and the carriage away from Home the return goes on home. -/
theorem return_heads (returning : s.run.state = .returning) (holding : s.cable.state = .holding)
    (idle : s.cable.activity = .idle) (top : s.asserted .top = true) (away : s.asserted .home = false) :
    Follows 1 (ask .returnRaise .raiseToTop s) s.headingHome := by
  have heads : takeResult .atTop s.foundUp = going s.headingHome :=
    (takeResult_atTop (s := s.foundUp) returning rfl).trans (askReturnHome_travels (s := s.foundUp) rfl rfl top away)
  rw [askReturnRaise_atTop holding idle top]
  exact .result heads (.going 0 s.headingHome)

/-- R129, R133: with the weight up at Home the return is over at once. -/
theorem return_parks (returning : s.run.state = .returning) (holding : s.cable.state = .holding)
    (idle : s.cable.activity = .idle) (top : s.asserted .top = true) (home : s.asserted .home = true) :
    Follows 2 (ask .returnRaise .raiseToTop s) (finishReturn ((s.setStep .returnHome).rest .parked)) := by
  have arrives : takeResult .atTop s.foundUp = { state := (s.setStep .returnHome).rest .parked, result := some .home } :=
    (takeResult_atTop (s := s.foundUp) returning rfl).trans (askReturnHome_home (s := s.foundUp) rfl rfl home)
  have ends := takeResult_home (s := (s.setStep .returnHome).rest .parked) returning rfl
  rw [askReturnRaise_atTop holding idle top]
  exact .result arrives (.result ends (.going 0 _))

/-! ### The abort (R133) -/

/-- R133: the run as an abort leaves it, before the movement is seen to. -/
def State.abortedRun (s : State) (reason : EndReason) : State :=
  s.setGauging { s.gauging with
    run := { s.run.stampEnd s with
      state := .returning, step := some .returnRaise, current := none, endReason := s.run.endReason.or (some reason) },
    dwell := none }

variable {reason : EndReason}

/-- R133: a traverse or a lowering is stopped. -/
theorem abortRun_stops (h : (∃ target way, s.cable.activity = .moving (.traverseTo target way)) ∨
      ∃ target stop start wet, s.cable.activity = .moving (.lowerTo target stop start wet)) :
    abortRun reason s = endMovement (s.abortedRun reason) .holding .stopped := by
  unfold abortRun stopMovement
  rcases h with ⟨target, way, moving⟩ | ⟨target, stop, start, wet, moving⟩ <;> simp only [moving, setGauging_cable] <;> rfl

theorem abortRun_raising (h : s.cable.activity = .moving .raiseToTop ∨
      ∃ target, s.cable.activity = .moving (.raiseTo target)) :
    abortRun reason s = going (s.abortedRun reason) := by
  unfold abortRun
  rcases h with moving | ⟨target, moving⟩ <;> rw [moving] <;> rfl

theorem abortRun_holding (idle : s.cable.activity = .idle) (holding : s.cable.state = .holding) :
    abortRun reason s = ask .returnRaise .raiseToTop (s.abortedRun reason) := by
  unfold abortRun
  rw [idle, holding]
  rfl

theorem abortRun_parked (idle : s.cable.activity = .idle) (parked : s.cable.state = .parked) :
    abortRun reason s = going (finishReturn (s.abortedRun reason)) := by
  unfold abortRun
  rw [idle, parked]
  rfl

/-- R133: what an abort finds to be stopped: a dwell, a traverse or a lowering. -/
def Cableway.Stoppable (c : Cableway) : Prop :=
  c.activity = .idle ∧ c.state = .holding ∨ (∃ target way, c.activity = .moving (.traverseTo target way)) ∨
    ∃ target stop start wet, c.activity = .moving (.lowerTo target stop start wet)

/-- R133: whatever was stopped, the carriage is Holding with the same contacts, and the return is asked for. -/
theorem abortRun_asks (stoppable : s.cable.Stoppable) : ∃ c : Cableway,
    c.state = .holding ∧ c.activity = .idle ∧ c.contacts = s.cable.contacts ∧ ∀ {k : Nat} {t : State},
      Follows k (ask .returnRaise .raiseToTop ((s.abortedRun reason).setCable c)) t → Follows (k + 1) (abortRun reason s) t := by
  rcases stoppable with ⟨idle, holding⟩ | moving
  · refine ⟨s.cable, holding, idle, rfl, fun {k t} h => ?_⟩
    rw [abortRun_holding idle holding]
    exact h.weaken
  · refine ⟨((s.abortedRun reason).rest .holding).cable, rfl, rfl, rfl, fun {k t} h => ?_⟩
    rw [abortRun_stops moving]
    exact .result (takeResult_again rfl rfl (Or.inr (Or.inl rfl))) h

end

end Sys2Proof.Machine
end

section
/-! SET METER, ABORT RUN and the end of the wait (R114, R122, R132, R133). -/

namespace Sys2Proof.Machine

/-! ### SET METER (R114) -/

theorem setMeter_query (s : State) : setMeter [] s = done s s.gauging.meter.bytes := rfl

theorem setMeter_words (pulses offset slope minimum : Word) (s : State) :
    setMeter (paramBytes [pulses, offset, slope, minimum]) s =
      if ¬ (1 ≤ pulses.toInt ∧ pulses.toInt ≤ 8) then badField s 0
      else if ¬ (0 ≤ offset.toInt ∧ offset.toInt ≤ 1000) then badField s 1
      else if ¬ (1 ≤ slope.toInt ∧ slope.toInt ≤ 5000) then badField s 2
      else if ¬ (0 ≤ minimum.toInt ∧ minimum.toInt ≤ 255) then badField s 3
      else if s.run.state.locks then refused s .wrongState 0
      else
        done (s.setGauging { s.gauging with meter :=
            { pulsesPerRevolution := pulses.toInt, offset := offset.toInt, slope := slope.toInt,
              minimumRevolutions := minimum.toInt } })
          (MeterSettings.bytes { pulsesPerRevolution := pulses.toInt, offset := offset.toInt, slope := slope.toInt,
                                 minimumRevolutions := minimum.toInt }) := by
  unfold setMeter
  rw [readWords_paramBytes]
  simp only [within_iff]

theorem locks_iff (x : RunState) : x.locks = true ↔ x = .running ∨ x = .returning := by
  cases x <;> simp [RunState.locks]

/-- R114: the values of a meter that lie in their ranges reach the last check. -/
theorem setMeter_meter (m : MeterSettings) (s : State)
    (pulses : 1 ≤ m.pulsesPerRevolution ∧ m.pulsesPerRevolution ≤ 8) (offset : 0 ≤ m.offset ∧ m.offset ≤ 1000)
    (slope : 1 ≤ m.slope ∧ m.slope ≤ 5000) (minimum : 0 ≤ m.minimumRevolutions ∧ m.minimumRevolutions ≤ 255) :
    setMeter (paramBytes [BitVec.ofInt 32 m.pulsesPerRevolution, BitVec.ofInt 32 m.offset, BitVec.ofInt 32 m.slope,
        BitVec.ofInt 32 m.minimumRevolutions]) s =
      if s.run.state.locks then refused s .wrongState 0
      else done (s.setGauging { s.gauging with meter := m }) m.bytes := by
  rw [setMeter_words, toInt_ofInt (by omega) (by omega), toInt_ofInt (by omega) (by omega),
    toInt_ofInt (by omega) (by omega), toInt_ofInt (by omega) (by omega), if_neg (not_not.mpr pulses),
    if_neg (not_not.mpr offset), if_neg (not_not.mpr slope), if_neg (not_not.mpr minimum)]

/-! ### The end of an Armed run (R122, R132) -/

theorem waitExpiry_armed {s : State} (armed : s.gauging.run.state = .armed) :
    waitExpiry s = endRun { s.run.stampEnd s with state := .expired, endReason := some .expired } s := by
  unfold waitExpiry
  rw [show s.run.state = .armed from armed]

theorem waitExpiry_other {s : State} (h : s.gauging.run.state ≠ .armed) : waitExpiry s = s := by
  unfold waitExpiry
  split
  · next armed => exact absurd armed h
  · rfl

theorem abortRunRequest_armed {s : State} (armed : s.gauging.run.state = .armed) :
    abortRunRequest [] s = done (endRun { s.run.stampEnd s with state := .aborted, endReason := some .cancelled } s) [] := by
  unfold abortRunRequest
  rw [show s.run.state = .armed from armed]

theorem abortRunRequest_running {s : State} (underWay : s.gauging.run.state = .running) :
    abortRunRequest [] s = done (deliver (abortRun .cancelled s)) [] := by
  unfold abortRunRequest
  rw [show s.run.state = .running from underWay]

theorem abortRunRequest_other {s : State} (notArmed : s.gauging.run.state ≠ .armed)
    (notRunning : s.gauging.run.state ≠ .running) : abortRunRequest [] s = refused s .wrongState 0 := by
  unfold abortRunRequest
  dsimp only
  split
  · next armed => exact absurd armed notArmed
  · next running => exact absurd running notRunning
  · rfl

/-! ### The end of the return (R133) -/

theorem Follows.of_going (k : Nat) {m : Moved} {t : State} (h : m = Machine.going t) : Follows k m t :=
  h ▸ .going k t

theorem finishReturn_reason {s : State} {reason : EndReason} (h : s.run.endReason = some reason) :
    finishReturn s = endRun { s.run with state := .aborted } s := by
  unfold finishReturn
  rw [h]

theorem endRun_attends (r : RunRecord) (s : State) : (endRun r s).attends .runEnded = true := raise_attends _ _

/-- R132: an answer in the slot leaves the reasons that are there. -/
theorem attends_answered {s : State} {r : Reason} (h : s.attends r = true) (status : Status) (code : Byte)
    (body : List Byte) : (s.answered status code body).attends r = true := by
  have kept : (s.port.attention ||| 0x002).getLsbD r.bit = true := by
    rw [BitVec.getLsbD_or, show s.port.attention.getLsbD r.bit = true from h, Bool.true_or]
  exact kept

/-- R133: the end fields that an abort writes. -/
theorem abortedRun_gauging (s : State) (reason : EndReason) : (s.abortedRun reason).gauging = { s.gauging with
    run := { s.gauging.run with
      state := .returning, step := some .returnRaise, current := none,
      endReason := some (s.gauging.run.endReason.getD reason), endTime := some s.clock,
      endStage := s.stage.record.stage },
    dwell := none } := by
  have e : s.run.endReason.or (some reason) = some (s.gauging.run.endReason.getD reason) := Option.or_some
  unfold State.abortedRun
  rw [e]
  rfl

end Sys2Proof.Machine

open Sys2Proof Sys2Proof.Machine

/-- Settles O48: the abort stops what is in progress, and the chain of results that follows ends in the raise, on the way
home, or at Home. -/
theorem meterAbortAndWait : Obligations.MeterAbortAndWait := by
  intro s running run ended
  refine ⟨fun armed => ?expires, fun notArmed => ?waits, fun heard empty => ?requests⟩
  case expires => exact (unlessHeld_running waitExpiry running).trans (congrArg _ (waitExpiry_armed armed))
  case waits => exact (unlessHeld_running waitExpiry running).trans (congrArg _ (waitExpiry_other notArmed))
  case requests =>
    have l : Listens s := ⟨running, heard, empty⟩
    refine ⟨fun armed => l.exec_done .abortRun (Nat.zero_le _) (abortRunRequest_armed armed), fun underWay => ?abort,
      fun notArmed notRunning => l.exec_refused (p := []) (why := .wrongState) (detail := 0) .abortRun
        (Nat.zero_le _) (abortRunRequest_other notArmed notRunning),
      l.exec_done .setMeter (Nat.zero_le _) (setMeter_query s), fun pulses offset slope minimum => ?badMeter,
      fun m p0 p0' p1 p1' p2 p2' p3 p3' => ?meter⟩
    case badMeter =>
      intro badField q0 q1 q2 q3
      have words := setMeter_words pulses offset slope minimum s
      refine ⟨fun n0 => l.exec_badField .setMeter (by simp) (words.trans (if_pos n0)), fun h0 n1 => ?_,
        fun h0 h1 n2 => ?_, fun h0 h1 h2 n3 => ?_⟩
      · rw [if_neg (not_not.mpr h0)] at words
        exact l.exec_badField .setMeter (by simp) (words.trans (if_pos n1))
      · rw [if_neg (not_not.mpr h0), if_neg (not_not.mpr h1)] at words
        exact l.exec_badField .setMeter (by simp) (words.trans (if_pos n2))
      · rw [if_neg (not_not.mpr h0), if_neg (not_not.mpr h1), if_neg (not_not.mpr h2)] at words
        exact l.exec_badField .setMeter (by simp) (words.trans (if_pos n3))
    case meter =>
      intro request
      have words := setMeter_meter m s ⟨p0, p0'⟩ ⟨p1, p1'⟩ ⟨p2, p2'⟩ ⟨p3, p3'⟩
      refine ⟨fun locked => ?_, fun notRunning notReturning => ?_⟩
      · exact l.exec_refused (why := .wrongState) (detail := 0) .setMeter (by simp)
          (words.trans (if_pos ((locks_iff _).mpr locked)))
      · refine l.exec_done .setMeter (by simp) (words.trans (if_neg fun h => ?_))
        exact ((locks_iff _).mp h).elim notRunning notReturning
    case abort =>
      intro c left aborted stopped off
      have aborts : ∀ {t : State}, deliver (abortRun .cancelled s) = t →
          exec (.abortRun []) s = .next (t.answered .done 0x3C []) := fun e =>
        l.exec_done .abortRun (Nat.zero_le _) (e ▸ abortRunRequest_running underWay)
      have gauging := abortedRun_gauging s .cancelled
      refine ⟨fun stoppable released => ?_, fun stoppable top away => ?_, fun stoppable top home => ?_, fun raising => ?_⟩
      · obtain ⟨c', holding, idle, contacts, asks⟩ := abortRun_asks (reason := .cancelled) stoppable
        have released' := (asserted_congr .top (s := s) (t := (s.abortedRun .cancelled).setCable c') contacts rfl).trans released
        have raises := askReturnRaise_raises (s := (s.abortedRun .cancelled).setCable c') holding idle released'
        refine ⟨_, ⟨aborts ((asks (.of_going 0 raises)).deliver_eq (by omega)), rfl, ?_, rfl, rfl⟩, ⟨rfl, rfl⟩, rfl, rfl, rfl⟩
        exact congrArg (fun g : GaugingUnit => { g.run with step := some .returnRaise }) gauging
      · obtain ⟨c', holding, idle, contacts, asks⟩ := abortRun_asks (reason := .cancelled) stoppable
        have top' := (asserted_congr .top (s := s) (t := (s.abortedRun .cancelled).setCable c') contacts rfl).trans top
        have away' := (asserted_congr .home (s := s) (t := (s.abortedRun .cancelled).setCable c') contacts rfl).trans away
        have heads := return_heads (s := (s.abortedRun .cancelled).setCable c') rfl holding idle top' away'
        refine ⟨_, ⟨aborts ((asks heads).deliver_eq (by omega)), rfl, ?_, rfl, rfl⟩, ⟨rfl, rfl⟩, rfl, rfl, rfl⟩
        exact congrArg (fun g : GaugingUnit => { g.run with step := some .returnHome }) gauging
      · obtain ⟨c', holding, idle, contacts, asks⟩ := abortRun_asks (reason := .cancelled) stoppable
        have top' := (asserted_congr .top (s := s) (t := (s.abortedRun .cancelled).setCable c') contacts rfl).trans top
        have home' := (asserted_congr .home (s := s) (t := (s.abortedRun .cancelled).setCable c') contacts rfl).trans home
        have parks := return_parks (s := (s.abortedRun .cancelled).setCable c') rfl holding idle top' home'
        have reason : (s.abortedRun .cancelled).run.endReason = some (run.endReason.getD .cancelled) :=
          congrArg (fun g : GaugingUnit => g.run.endReason) gauging
        rw [finishReturn_reason (s := ((((s.abortedRun .cancelled).setCable c').setStep .returnHome).rest .parked)) reason]
          at parks
        refine ⟨_, ⟨aborts ((asks parks).deliver_eq (by omega)), rfl, ?_, rfl, rfl⟩, ⟨rfl, rfl⟩, rfl, rfl,
          attends_answered (endRun_attends _ _) _ _ _⟩
        exact congrArg (fun g : GaugingUnit => { g.run with
          state := .aborted, step := none, triggerMet := none, waitRemaining := none }) gauging
      · have going := abortRun_raising (reason := .cancelled) raising
        refine ⟨_, ⟨aborts ((Follows.of_going 0 going).deliver_eq (by omega)), rfl,
          ?_, rfl, rfl⟩, rfl⟩
        exact congrArg GaugingUnit.run gauging

end

section
/-! START RUN (R120, R123, R124): its start condition, its checks in their order, and the run that becomes Running at
once. -/

namespace Sys2Proof.Machine

/-! ### The start condition (R120 checks 1 to 3) -/

theorem startConditionOf_one (a : Word) :
    startConditionOf (paramBytes [a]) = if a = 0 then .ok .immediate else .error 0 := by
  unfold startConditionOf
  rw [readWords_paramBytes]

theorem startConditionOf_three (a b c : Word) :
    startConditionOf (paramBytes [a, b, c]) =
      if a = 0 then .ok .immediate
      else if a ≠ 1 then .error 0
      else if ¬ (-2000 ≤ b.toInt ∧ b.toInt ≤ 30000) then .error 1
      else if ¬ (1 ≤ c.toInt ∧ c.toInt ≤ 172800) then .error 2
      else .ok (.atStage b.toInt c.toNat) := by
  unfold startConditionOf
  rw [readWords_paramBytes]
  simp only [within_iff]
  rfl

/-- A word greater than 1 names no start condition. -/
theorem not_condition {a : Word} (h : 1 < a.toNat) : a ≠ 0 ∧ a ≠ 1 :=
  ⟨fun e => by rw [e] at h; exact absurd h (by decide), fun e => by rw [e] at h; exact absurd h (by decide)⟩

/-! ### The checks (R120) -/

theorem startRun_badField {params : List Byte} {k : Nat} (s : State) (h : startConditionOf params = .error k) :
    startRun params s = badField s k := by
  unfold startRun
  rw [h]

section
variable {params : List Byte} {c : StartCondition} {s : State} (h : startConditionOf params = .ok c)
include h

theorem startRun_notFitted (strap : s.port.cablewayFitted = .low) : startRun params s = refused s .notFitted 0 := by
  have unfitted : s.fitted = false := by rw [State.fitted, strap]; rfl
  unfold startRun
  rw [h]
  exact if_pos (by rw [unfitted]; decide)

/-- R120: a run under way, a carriage that is not Parked or fewer than two Measure verticals. -/
theorem startRun_wrongState (strap : s.port.cablewayFitted = .high)
    (wrong : (s.gauging.run.state = .armed ∨ s.gauging.run.state = .running ∨ s.gauging.run.state = .returning) ∨
      s.cable.state ≠ .parked ∨ s.measureIndices.length < 2) : startRun params s = refused s .wrongState 0 := by
  unfold startRun
  rw [h]
  refine (if_neg (not_not.mpr ((fitted_iff s).mpr strap))).trans ?_
  split
  · rfl
  · rfl
  · rfl
  · next notArmed notRunning notReturning =>
    rcases wrong with (armed | running | returning) | notParked | few
    · exact absurd armed notArmed
    · exact absurd running notRunning
    · exact absurd returning notReturning
    · exact if_pos notParked
    · by_cases notParked : s.cable.state ≠ .parked
      · exact if_pos notParked
      · exact (if_neg notParked).trans (if_pos few)

theorem startRun_begins (strap : s.port.cablewayFitted = .high)
    (free : ¬ (s.gauging.run.state = .armed ∨ s.gauging.run.state = .running ∨ s.gauging.run.state = .returning))
    (parked : s.cable.state = .parked) (enough : 2 ≤ s.measureIndices.length) :
    startRun params s = accepted (beginRun c s) (be2 s.gauging.nextId.toNat) := by
  unfold startRun
  rw [h]
  refine (if_neg (not_not.mpr ((fitted_iff s).mpr strap))).trans ?_
  split
  · next armed => exact absurd (Or.inl armed) free
  · next running => exact absurd (Or.inr (Or.inl running)) free
  · next returning => exact absurd (Or.inr (Or.inr returning)) free
  · exact (if_neg (not_not.mpr parked)).trans (if_neg (not_lt.mpr enough))

end

/-! ### A run that starts (R120, R123) -/

/-- R120: the record replaced and the next id advanced, with the new run Armed. -/
def State.withArmedRun (s : State) (c : StartCondition) : State :=
  s.setGauging { s.gauging with run := armedRecord s c, nextId := idAfter s.gauging.nextId }

theorem beginRun_immediate (s : State) : beginRun .immediate s = startRunning (s.withArmedRun .immediate) := rfl

theorem beginRun_atStage (s : State) (trigger : Int) (wait : Nat) :
    beginRun (.atStage trigger wait) s = s.withArmedRun (.atStage trigger wait) := rfl

theorem enterVertical_cable (i : Nat) (s : State) : (enterVertical i s).cable = s.cable := by
  unfold enterVertical
  split <;> rfl

theorem enterVertical_endReason (i : Nat) (s : State) :
    (enterVertical i s).run.endReason = s.run.endReason := by
  unfold enterVertical
  split <;> rfl

/-- R129, R133: an abort while the carriage is Parked ends the run at once, and nothing moves. -/
theorem abortRun_ends {s : State} {reason : EndReason} (parked : s.cable.state = .parked)
    (idle : s.cable.activity = .idle) :
    (deliver (abortRun reason s)).run.state = .aborted ∧
      (deliver (abortRun reason s)).run.endReason = some (s.run.endReason.getD reason) ∧
      (deliver (abortRun reason s)).attends .runEnded = true ∧ (deliver (abortRun reason s)).cable = s.cable := by
  have kept : (s.abortedRun reason).run.endReason = some (s.run.endReason.getD reason) :=
    congrArg (fun g : GaugingUnit => g.run.endReason) (abortedRun_gauging s reason)
  rw [abortRun_parked idle parked, deliver_going, finishReturn_reason kept]
  exact ⟨rfl, kept, endRun_attends _ _, rfl⟩

/-- R123: under CableInhibit the run that has started ends Aborted and nothing moves. -/
theorem startRunning_inhibited {s : State} {i : Nat} {v : Vertical} (first : FirstMeasured s.verticals i v)
    (inhibited : s.warning.effects.cableInhibit ≠ []) (parked : s.cable.state = .parked)
    (idle : s.cable.activity = .idle) (fresh : s.gauging.run.endReason = none) :
    (startRunning s).run.state = .aborted ∧ (startRunning s).run.endReason = some .inhibited ∧
      (startRunning s).attends .runEnded = true ∧ (startRunning s).cable = s.cable := by
  obtain ⟨rest, indices⟩ := measureIndices_first first
  unfold startRunning
  rw [indices]
  dsimp only
  rw [if_pos ((inhibited_iff s).mpr inhibited)]
  generalize started : ((s.setGauging _).raise .runStarted : State) = u
  have cable : (enterVertical i u).cable = s.cable := by rw [enterVertical_cable, ← started]; rfl
  have reason : (enterVertical i u).run.endReason = none := by
    rw [enterVertical_endReason, ← started]
    exact fresh
  obtain ⟨state, ended, raised, still⟩ := abortRun_ends (reason := .inhibited)
    ((congrArg Cableway.state cable).trans parked) ((congrArg Cableway.activity cable).trans idle)
  rw [reason] at ended
  exact ⟨state, ended, raised, still.trans cable⟩

/-- The start of a run that replaces the record, told of the state before. -/
theorem RunBegins.of_armedRun {i : Nat} {v : Vertical} {s t : State} {c : StartCondition}
    (free : s.gauging.run.state ≠ .armed) (h : RunBegins i v (s.withArmedRun c) t) : RunBegins i v s t := by
  have results : (s.withArmedRun c).startResults = s.startResults := by
    have before : s.startResults = [] := if_neg free
    rw [before]
    rfl
  obtain ⟨entered, rest⟩ := h
  rw [results] at entered
  exact ⟨entered, rest⟩

end Sys2Proof.Machine

open Sys2Proof Sys2Proof.Machine

/-- Settles O49: the checks in their order, and the start of an Immediate run as the start of the Armed run that replaces
the record. -/
theorem startRunArmsOrRuns : Obligations.StartRunArmsOrRuns := by
  intro s running heard empty refused underWay measured trigger wait id next
  have l : Listens s := ⟨running, heard, empty⟩
  have counted : s.measureIndices.length = measured := measureIndices_length s
  refine ⟨fun a b c => ⟨fun h => ?_, fun h => ?_, fun h => ?_, fun h h' => ?_⟩, fun params form => ?_,
    fun strap free parked enough => ⟨fun b c hb hc => ?_, fun i v first => ?_⟩⟩
  · exact l.exec_badField .startRun (by simp)
      (startRun_badField s ((startConditionOf_one a).trans (if_neg h)))
  · obtain ⟨h0, h1⟩ := not_condition h
    exact l.exec_badField .startRun (by simp)
      (startRun_badField s ((startConditionOf_three a b c).trans ((if_neg h0).trans (if_pos h1))))
  · exact l.exec_badField .startRun (by simp) (startRun_badField s ((startConditionOf_three 1 b c).trans
      ((if_neg (by decide)).trans ((if_neg (by decide)).trans (if_pos h)))))
  · exact l.exec_badField .startRun (by simp) (startRun_badField s ((startConditionOf_three 1 b c).trans
      ((if_neg (by decide)).trans ((if_neg (by decide)).trans ((if_neg (not_not.mpr h)).trans (if_pos h'))))))
  · obtain ⟨condition, short, ok⟩ : ∃ condition, params.length ≤ 128 ∧ startConditionOf params = .ok condition := by
      rcases form with rfl | ⟨b, c, rfl⟩ | ⟨b, c, hb, hc, rfl⟩
      · exact ⟨_, by simp, startConditionOf_one 0⟩
      · exact ⟨_, by simp, startConditionOf_three 0 b c⟩
      · exact ⟨_, by simp, (startConditionOf_three 1 b c).trans ((if_neg (by decide)).trans ((if_neg (by decide)).trans
          ((if_neg (not_not.mpr hb)).trans (if_neg (not_not.mpr hc)))))⟩
    refine ⟨fun strap => ?_, fun strap wrong => ?_⟩
    · exact l.exec_refused (why := .notFitted) (detail := 0) .startRun short (startRun_notFitted ok strap)
    · exact l.exec_refused (why := .wrongState) (detail := 0) .startRun short
        (startRun_wrongState ok strap (by rw [counted]; exact wrong))
  · have ok := (startConditionOf_three 1 b c).trans ((if_neg (by decide)).trans ((if_neg (by decide)).trans
      ((if_neg (not_not.mpr hb)).trans (if_neg (not_not.mpr hc)))))
    exact l.exec_accepted .startRun (by simp) (startRun_begins ok strap free parked (by rw [counted]; exact enough))
  · have begins := startRun_begins (startConditionOf_one 0) strap free parked (by rw [counted]; exact enough)
    have notArmed : s.gauging.run.state ≠ .armed := fun armed => free (Or.inl armed)
    have name := startRunning_runName (s.withArmedRun .immediate)
    refine ⟨_, l.exec_accepted .startRun (by simp) begins, rfl, congrArg Prod.fst name,
      (startRunning_frame (s.withArmedRun .immediate)).nextId, congrArg Prod.snd name,
      attends_answered (startRunning_attends _) _ _ _, fun uninhibited departs => ?_, fun inhibited idle => ?_⟩
    · have departed := startRunning_departs (s := s.withArmedRun .immediate) rfl first departs uninhibited
      exact (RunBegins.of_armedRun notArmed departed.1).answered _
    · obtain ⟨state, reason, ended, cable⟩ :=
        startRunning_inhibited (s := s.withArmedRun .immediate) first inhibited parked idle rfl
      exact ⟨state, reason, attends_answered ended _ _ _, cable⟩

end

section
/-! DEFINE RULE with its checks in their order, ARM RULE, DISARM RULE and RETIRE RULE (R140, R142 to R146). -/

namespace Sys2Proof.Machine

/-! ### The codes of the parameters -/

theorem word_ne_of_lt {w : Word} {k n : Nat} (h : n < w.toNat) (small : k ≤ n) (fits : k < 4294967296) :
    w ≠ BitVec.ofNat 32 k := fun e => by
  rw [e, toNat_ofNat_small fits] at h
  omega

theorem word_eq_of_toNat {w : Word} {k : Nat} (h : w.toNat = k) : w = BitVec.ofNat 32 k := by
  rw [← h, BitVec.ofNat_toNat, BitVec.setWidth_eq]

theorem flagOf_none {w : Word} (h : 1 < w.toNat) : flagOf w = none := by
  have other : ∀ k ≤ 1, w ≠ BitVec.ofNat 32 k := fun k hk => word_ne_of_lt h hk (by omega)
  exact (if_neg (other 0 (by omega))).trans (if_neg (other 1 le_rfl))

theorem flagOf_some {w : Word} (h : w.toNat ≤ 1) : ∃ b, flagOf w = some b := by
  obtain e | e : w.toNat = 0 ∨ w.toNat = 1 := by omega
  · exact ⟨false, by rw [word_eq_of_toNat e]; rfl⟩
  · exact ⟨true, by rw [word_eq_of_toNat e]; rfl⟩

theorem flagOf_bool (b : Bool) : flagOf (if b then 1 else 0) = some b := by cases b <;> rfl

theorem quantity_none {w : Word} (h : 2 < w.toNat) : Quantity.ofCode w = none := by
  have other : ∀ k ≤ 2, w ≠ BitVec.ofNat 32 k := fun k hk => word_ne_of_lt h hk (by omega)
  exact (if_neg (other 0 (by omega))).trans ((if_neg (other 1 (by omega))).trans (if_neg (other 2 le_rfl)))

theorem quantity_code (q : Quantity) : Quantity.ofCode (BitVec.ofInt 32 q.code) = some q := by cases q <;> rfl

theorem siren_none {w : Word} (h : 3 < w.toNat) : Siren.ofCode w = Option.none := by
  have other : ∀ k ≤ 3, w ≠ BitVec.ofNat 32 k := fun k hk => word_ne_of_lt h hk (by omega)
  exact (if_neg (other 0 (by omega))).trans ((if_neg (other 1 (by omega))).trans
    ((if_neg (other 2 (by omega))).trans (if_neg (other 3 le_rfl))))

theorem siren_code (p : Siren) : Siren.ofCode (BitVec.ofInt 32 p.code) = some p := by cases p <;> rfl

theorem siren_some {w : Word} (h : w.toNat ≤ 3) : ∃ p, Siren.ofCode w = some p := by
  obtain e | e | e | e : w.toNat = 0 ∨ w.toNat = 1 ∨ w.toNat = 2 ∨ w.toNat = 3 := by omega
  · exact ⟨.none, by rw [word_eq_of_toNat e]; rfl⟩
  · exact ⟨.p1, by rw [word_eq_of_toNat e]; rfl⟩
  · exact ⟨.p2, by rw [word_eq_of_toNat e]; rfl⟩
  · exact ⟨.p3, by rw [word_eq_of_toNat e]; rfl⟩

theorem effectFlags_none {w : Word} (h : 15 < w.toNat) : EffectFlags.ofWord w = none := if_neg (by omega)

/-- 11.3: the four effect flags of a set of bits. -/
theorem effectFlags_bits (flags : BitVec 4) : EffectFlags.ofWord (flags.setWidth 32) =
    some { floodCadence := flags.getLsbD 0, cableInhibit := flags.getLsbD 1, surfaceOnly := flags.getLsbD 2,
           remoteLine := flags.getLsbD 3 } := by
  have small : (flags.setWidth 32).toNat < 16 := by
    rw [BitVec.toNat_setWidth]
    have := flags.isLt
    omega
  unfold EffectFlags.ofWord
  rw [if_pos small]
  simp only [BitVec.getLsbD_setWidth]
  rfl

/-! ### The checks of DEFINE RULE (R142) -/

/-- R140: what a quantity's thresholds lie in. -/
theorem admits_stage (v : Int) : Quantity.stage.admits v = true ↔ -2000 ≤ v ∧ v ≤ 30000 := within_iff _ _ v

theorem admits_rate (v : Int) : Quantity.rate.admits v = true ↔ -100000 ≤ v ∧ v ≤ 100000 := within_iff _ _ v

theorem admits_discharge (v : Int) : Quantity.discharge.admits v = true ↔ 0 ≤ v ∧ v ≤ 16000000 := within_iff _ _ v

/-- R142 checks 10 to 12, the last three, and the rule that passes them. -/
def ruleOfCodes (q : Quantity) (trip clear tripPers clearPers level ack siren flags : Word) :
    Except (Reject × Nat) Rule :=
  match flagOf ack, Siren.ofCode siren, EffectFlags.ofWord flags with
  | none, _, _ => .error (.badField, 7)
  | some _, none, _ => .error (.badField, 8)
  | some _, some _, none => .error (.badField, 9)
  | some a, some p, some f =>
    .ok { state := .disarmed, quantity := q, trip := trip.toInt, clear := clear.toInt,
          tripPersistence := tripPers.toNat, clearPersistence := clearPers.toNat, tripCount := 0,
          clearCount := 0, level := level.toNat, acknowledgeRequired := a, siren := p, flags := f,
          tripTime := none, peak := none, clearTime := none }

section
variable {old : Option Rule} {quantity trip clear tripPers clearPers level ack siren flags : Word} {q : Quantity}

theorem checkRule_active {r : Rule} (h : old = some r) (active : r.state ≠ .disarmed) :
    checkRule old quantity trip clear tripPers clearPers level ack siren flags = .error (.ruleActive, 0) :=
  if_pos (by rw [h]; exact bne_iff_ne.mpr active)

/-- R142 check 3: the slot is free to be defined. -/
theorem slot_free (free : ∀ r, old = some r → r.state = .disarmed) :
    ¬ ((old.map fun r => r.state != .disarmed).getD false) = true := by
  cases old with
  | none => exact Bool.false_ne_true
  | some r =>
    rw [Option.map_some, Option.getD_some, free r rfl]
    decide

theorem checkRule_quantity (free : ∀ r, old = some r → r.state = .disarmed) (h : Quantity.ofCode quantity = none) :
    checkRule old quantity trip clear tripPers clearPers level ack siren flags = .error (.badField, 1) := by
  unfold checkRule
  rw [if_neg (slot_free free), h]

/-- R142 checks 5 to 12, for a free slot and a quantity. -/
theorem checkRule_free (free : ∀ r, old = some r → r.state = .disarmed) (h : Quantity.ofCode quantity = some q) :
    checkRule old quantity trip clear tripPers clearPers level ack siren flags =
      if ¬ q.admits trip.toInt = true then .error (.badField, 2)
      else if ¬ q.admits clear.toInt = true then .error (.badField, 3)
      else if trip.toInt < clear.toInt then .error (.badField, 3)
      else if ¬ (1 ≤ tripPers.toInt ∧ tripPers.toInt ≤ 15) then .error (.badField, 4)
      else if ¬ (1 ≤ clearPers.toInt ∧ clearPers.toInt ≤ 63) then .error (.badField, 5)
      else if ¬ (1 ≤ level.toInt ∧ level.toInt ≤ 4) then .error (.badField, 6)
      else ruleOfCodes q trip clear tripPers clearPers level ack siren flags := by
  unfold checkRule
  rw [if_neg (slot_free free), h]
  simp only [within_iff]
  rfl

theorem ruleOfCodes_acknowledge (h : flagOf ack = none) :
    ruleOfCodes q trip clear tripPers clearPers level ack siren flags = .error (.badField, 7) := by
  unfold ruleOfCodes
  rw [h]

theorem ruleOfCodes_siren {a : Bool} (h : flagOf ack = some a) (h' : Siren.ofCode siren = Option.none) :
    ruleOfCodes q trip clear tripPers clearPers level ack siren flags = .error (.badField, 8) := by
  unfold ruleOfCodes
  rw [h, h']

theorem ruleOfCodes_flags {a : Bool} {p : Siren} (h : flagOf ack = some a) (h' : Siren.ofCode siren = some p)
    (h'' : EffectFlags.ofWord flags = none) :
    ruleOfCodes q trip clear tripPers clearPers level ack siren flags = .error (.badField, 9) := by
  unfold ruleOfCodes
  rw [h, h', h'']

/-! ### DEFINE RULE (R142, R143) -/

theorem defineRule_outside {slot : Word} {rest : List Word} (s : State) (h : slot.toInt < 0 ∨ 15 < slot.toInt)
    (form : rest.length = 9) : defineRule (paramBytes (slot :: rest)) s = badField s 0 := by
  obtain ⟨a, b, c, d, e, f, g, x, y, rfl⟩ : ∃ a b c d e f g x y, rest = [a, b, c, d, e, f, g, x, y] := by
    match rest, form with
    | [a, b, c, d, e, f, g, x, y], _ => exact ⟨a, b, c, d, e, f, g, x, y, rfl⟩
  unfold defineRule
  rw [readWords_paramBytes]
  dsimp only
  rw [slotOf_none (n := Config.rules) h]

theorem defineRule_error {k : Fin Config.rules} {s : State} {e : Reject × Nat}
    (h : checkRule (s.warning.rules.get k) quantity trip clear tripPers clearPers level ack siren flags = .error e) :
    defineRule (paramBytes [BitVec.ofNat 32 k.val, quantity, trip, clear, tripPers, clearPers, level, ack, siren, flags]) s =
      refused s e.1 e.2 := by
  unfold defineRule
  rw [readWords_paramBytes]
  dsimp only
  rw [slotOf_ofNat k.isLt (by decide)]
  dsimp only
  rw [RuleTable.rule_eq_get, h]

theorem defineRule_ok {k : Fin Config.rules} {s : State} {r : Rule}
    (h : checkRule (s.warning.rules.get k) quantity trip clear tripPers clearPers level ack siren flags = .ok r) :
    defineRule (paramBytes [BitVec.ofNat 32 k.val, quantity, trip, clear, tripPers, clearPers, level, ack, siren, flags]) s =
      done (s.setRules (s.warning.rules.set k.val (some r) k.isLt)) (ruleBytes k.val (some r)) := by
  unfold defineRule
  rw [readWords_paramBytes]
  dsimp only
  rw [slotOf_ofNat k.isLt (by decide)]
  dsimp only
  rw [RuleTable.rule_eq_get, h]
  dsimp only
  rw [RuleTable.put_eq_set]

end

/-! ### ARM RULE, DISARM RULE and RETIRE RULE (R144 to R146) -/

section
variable {s : State} {k : Fin Config.rules} {r : Rule}

theorem onRuleSlot_at (k : Fin Config.rules) (s : State) (act : Nat → Option Rule → Taken) :
    onRuleSlot (beWord (BitVec.ofNat 32 k.val)) s act = act k.val (s.warning.rules.get k) :=
  onRuleSlot_some s act (toInt_ofNat_small (Nat.lt_trans k.isLt (by decide)))

theorem armRule_outside {slot : Word} (s : State) (h : slotOf Config.rules slot = none) :
    armRule (beWord slot) s = badField s 0 := onRuleSlot_none s _ h

theorem armRule_empty (h : s.warning.rules.get k = none) :
    armRule (beWord (BitVec.ofNat 32 k.val)) s = refused s .notFound 0 := by
  rw [armRule, onRuleSlot_at, h]

theorem armRule_disarmed (h : s.warning.rules.get k = some r) (disarmed : r.state = .disarmed) :
    armRule (beWord (BitVec.ofNat 32 k.val)) s =
      done (s.setRules (s.warning.rules.set k.val (some r.arm) k.isLt)) (ruleBytes k.val (some r.arm)) := by
  rw [armRule, onRuleSlot_at, h]
  dsimp only
  rw [if_neg (not_not.mpr disarmed), RuleTable.put_eq_set]

theorem armRule_active (h : s.warning.rules.get k = some r) (active : r.state ≠ .disarmed) :
    armRule (beWord (BitVec.ofNat 32 k.val)) s = refused s .wrongState 0 := by
  rw [armRule, onRuleSlot_at, h]
  exact if_pos active

theorem disarmRule_outside {slot : Word} (s : State) (h : slotOf Config.rules slot = none) :
    disarmRule (beWord slot) s = badField s 0 := onRuleSlot_none s _ h

theorem disarmRule_empty (h : s.warning.rules.get k = none) :
    disarmRule (beWord (BitVec.ofNat 32 k.val)) s = refused s .notFound 0 := by
  rw [disarmRule, onRuleSlot_at, h]

theorem disarmRule_disarmed (h : s.warning.rules.get k = some r) (disarmed : r.state = .disarmed) :
    disarmRule (beWord (BitVec.ofNat 32 k.val)) s = refused s .wrongState 0 := by
  rw [disarmRule, onRuleSlot_at, h]
  exact if_pos disarmed

theorem disarmRule_active (h : s.warning.rules.get k = some r) (active : r.state ≠ .disarmed) :
    disarmRule (beWord (BitVec.ofNat 32 k.val)) s =
      done (takeRuleOut k.val r (some r.disarm) s) (ruleBytes k.val (some r.disarm)) := by
  rw [disarmRule, onRuleSlot_at, h]
  exact if_neg active

theorem retireRule_outside {slot : Word} (s : State) (h : slotOf Config.rules slot = none) :
    retireRule (beWord slot) s = badField s 0 := onRuleSlot_none s _ h

theorem retireRule_empty (h : s.warning.rules.get k = none) :
    retireRule (beWord (BitVec.ofNat 32 k.val)) s = refused s .notFound 0 := by
  rw [retireRule, onRuleSlot_at, h]

theorem retireRule_present (h : s.warning.rules.get k = some r) :
    retireRule (beWord (BitVec.ofNat 32 k.val)) s = done (takeRuleOut k.val r none s) [] := by
  rw [retireRule, onRuleSlot_at, h]

/-- R145, R156: the rules that are left when one is taken out. -/
theorem takeRuleOut_rules (k : Fin Config.rules) (r : Rule) (after : Option Rule) (s : State) :
    (takeRuleOut k.val r after s).warning.rules = s.warning.rules.set k.val after k.isLt := by
  rw [takeRuleOut_warning, ← RuleTable.put_eq_set]
  rfl

theorem effectsLaw_of_warning {s : State} (w : WarningUnit) (h : s.warning = w.form) : EffectsLaw s := by
  unfold EffectsLaw
  rw [h]
  exact ⟨rfl, rfl, rfl, rfl, rfl⟩

/-- R145, R156: RuleCleared is raised when a contributing rule is taken out. -/
theorem takeRuleOut_attends (k : Nat) {r : Rule} (after : Option Rule) (s : State) (contributing : r.contributing = true) :
    (takeRuleOut k r after s).attends .ruleCleared = true := by
  refine (formEffects_frame ((s.setRules (s.warning.rules.put k after)).raiseIf r.contributing .ruleCleared)).raised _ ?_
  rw [contributing]
  exact raise_attends _ _

end

theorem contributing_of_state {r : Rule} (notDisarmed : r.state ≠ .disarmed) (notArmed : r.state ≠ .armed) :
    r.contributing = true := by
  rw [contributing_iff]
  cases h : r.state with
  | disarmed => exact absurd h notDisarmed
  | armed => exact absurd h notArmed
  | tripped => exact Or.inl rfl
  | acknowledged => exact Or.inr (Or.inl rfl)
  | latched => exact Or.inr (Or.inr rfl)

end Sys2Proof.Machine

open Sys2Proof Sys2Proof.Machine

/-- Settles O57: the checks of DEFINE RULE in their order, and the owner's answer for each state of the rule in the slot.
A rule taken out leaves the Warning Unit formed again from the rules that are left. -/
theorem rulesAreDefinedArmedAndTakenOut : Obligations.RulesAreDefinedArmedAndTakenOut := by
  intro k s running heard empty slot put free fits
  have l : Listens s := ⟨running, heard, empty⟩
  have admits : ∀ q v, q.admits v = true ↔ fits q v := fun q v => by
    cases q with
    | stage => exact admits_stage v
    | rate => exact admits_rate v
    | discharge => exact admits_discharge v
  have fails : ∀ {p : List Byte} {e : Reject × Nat}, p.length ≤ 128 → defineRule p s = refused s e.1 e.2 →
      exec (.defineRule p) s =
        .next (s.answered .refused 0x40 [BitVec.ofNat 8 e.1.code, BitVec.ofNat 8 e.2]) := fun short owned =>
    l.exec_refused .defineRule short owned
  refine ⟨?outside, ?checks, ?defined, fun none => ?noRule, fun r present => ?rule⟩
  case outside =>
    intro slot outside
    have unnamed : slotOf Config.rules slot = none := slotOf_none outside
    exact ⟨fun rest form => l.exec_badField .defineRule (by simp [form]) (defineRule_outside s outside form),
      l.exec_badField .armRule (by simp) (armRule_outside s unnamed),
      l.exec_badField .disarmRule (by simp) (disarmRule_outside s unnamed),
      l.exec_badField .retireRule (by simp) (retireRule_outside s unnamed)⟩
  case checks =>
    intro quantity trip clear tripPersistence clearPersistence level acknowledge siren flags request refused
    refine ⟨fun notFree => ?active, fun isFree unknown => ?quantity, fun q isFree code => ?named⟩
    case active =>
      obtain ⟨r, present, active⟩ : ∃ r, s.warning.rules.get k = some r ∧ r.state ≠ .disarmed := by
        by_contra nothing
        exact notFree fun r present => by_contra fun active => nothing ⟨r, present, active⟩
      exact fails (by simp) (defineRule_error (checkRule_active present active))
    case quantity => exact fails (by simp) (defineRule_error (checkRule_quantity isFree (quantity_none unknown)))
    case named =>
      have known : Quantity.ofCode quantity = some q := code ▸ quantity_code q
      have checks := checkRule_free (trip := trip) (clear := clear) (tripPers := tripPersistence)
        (clearPers := clearPersistence) (level := level) (ack := acknowledge) (siren := siren) (flags := flags) isFree known
      refine ⟨fun unfit => ?_, fun fit unfit => ?_, fun fit fit' order => ?_⟩
      · exact fails (by simp) (defineRule_error (checks.trans (if_pos fun h => unfit ((admits q _).mp h))))
      · rw [if_neg (not_not.mpr ((admits q _).mpr fit))] at checks
        by_cases fit' : fits q clear.toInt
        · rw [if_neg (not_not.mpr ((admits q _).mpr fit'))] at checks
          exact fails (by simp) (defineRule_error (checks.trans (if_pos (unfit.resolve_left (not_not.mpr fit')))))
        · exact fails (by simp) (defineRule_error (checks.trans (if_pos fun h => fit' ((admits q _).mp h))))
      · rw [if_neg (not_not.mpr ((admits q _).mpr fit)), if_neg (not_not.mpr ((admits q _).mpr fit')),
          if_neg (not_lt.mpr order)] at checks
        intro p4 p5 p6
        have lasts : p4 → p5 → p6 → _ = ruleOfCodes q trip clear tripPersistence clearPersistence level acknowledge siren
            flags := fun h4 h5 h6 => checks.trans ((if_neg (not_not.mpr h4)).trans ((if_neg (not_not.mpr h5)).trans
          (if_neg (not_not.mpr h6))))
        refine ⟨fun n4 => ?_, fun h4 n5 => ?_, fun h4 h5 n6 => ?_, fun h4 h5 h6 unknown => ?_,
          fun h4 h5 h6 yesNo unknown => ?_, fun h4 h5 h6 yesNo pattern unknown => ?_⟩
        · exact fails (by simp) (defineRule_error (checks.trans (if_pos n4)))
        · exact fails (by simp) (defineRule_error (checks.trans ((if_neg (not_not.mpr h4)).trans (if_pos n5))))
        · exact fails (by simp) (defineRule_error (checks.trans ((if_neg (not_not.mpr h4)).trans
            ((if_neg (not_not.mpr h5)).trans (if_pos n6)))))
        · exact fails (by simp) (defineRule_error ((lasts h4 h5 h6).trans (ruleOfCodes_acknowledge (flagOf_none unknown))))
        · obtain ⟨a, ha⟩ := flagOf_some yesNo
          exact fails (by simp) (defineRule_error ((lasts h4 h5 h6).trans (ruleOfCodes_siren ha (siren_none unknown))))
        · obtain ⟨a, ha⟩ := flagOf_some yesNo
          obtain ⟨p, hp⟩ := siren_some pattern
          exact fails (by simp) (defineRule_error ((lasts h4 h5 h6).trans
            (ruleOfCodes_flags ha hp (effectFlags_none unknown))))
  case defined =>
    intro q trip clear tripPersistence clearPersistence level acknowledge siren flags request isFree fit fit' order
      p4 p4' p5 p5' p6 p6'
    have range : ∀ v, fits q v → -2147483648 ≤ v ∧ v < 2147483648 := fun v h => by
      cases q with
      | stage => exact ⟨by have := h.1; omega, by have := h.2; omega⟩
      | rate => exact ⟨by have := h.1; omega, by have := h.2; omega⟩
      | discharge => exact ⟨by have := h.1; omega, by have := h.2; omega⟩
    have tripWord : (BitVec.ofInt 32 trip).toInt = trip := toInt_ofInt (range trip fit).1 (range trip fit).2
    have clearWord : (BitVec.ofInt 32 clear).toInt = clear := toInt_ofInt (range clear fit').1 (range clear fit').2
    have count : ∀ n : Nat, n ≤ 63 → (BitVec.ofNat 32 n).toInt = n ∧ (BitVec.ofNat 32 n).toNat = n := fun n hn =>
      ⟨toInt_ofNat_small (by omega), toNat_ofNat_small (by omega)⟩
    obtain ⟨trips, trips'⟩ := count tripPersistence (by omega)
    obtain ⟨clears, clears'⟩ := count clearPersistence p5'
    obtain ⟨levels, levels'⟩ := count level (by omega)
    have checks := checkRule_free (trip := BitVec.ofInt 32 trip) (clear := BitVec.ofInt 32 clear)
      (tripPers := BitVec.ofNat 32 tripPersistence) (clearPers := BitVec.ofNat 32 clearPersistence)
      (level := BitVec.ofNat 32 level) (ack := if acknowledge then 1 else 0) (siren := BitVec.ofInt 32 siren.code)
      (flags := flags.setWidth 32) isFree (quantity_code q)
    rw [tripWord, clearWord, trips, clears, levels, if_neg (not_not.mpr ((admits q _).mpr fit)),
      if_neg (not_not.mpr ((admits q _).mpr fit')), if_neg (not_lt.mpr order),
      if_neg (not_not.mpr ⟨by omega, by omega⟩), if_neg (not_not.mpr ⟨by omega, by omega⟩),
      if_neg (not_not.mpr ⟨by omega, by omega⟩), ruleOfCodes, flagOf_bool, siren_code, effectFlags_bits, tripWord,
      clearWord, trips', clears', levels'] at checks
    exact l.exec_done .defineRule (by simp) (defineRule_ok checks)
  case noRule =>
    exact ⟨l.exec_refused (why := .notFound) (detail := 0) .armRule (by simp) (armRule_empty none),
      l.exec_refused (why := .notFound) (detail := 0) .disarmRule (by simp) (disarmRule_empty none),
      l.exec_refused (why := .notFound) (detail := 0) .retireRule (by simp) (retireRule_empty none)⟩
  case rule =>
    refine ⟨fun disarmed => ⟨l.exec_done .armRule (by simp) (armRule_disarmed present disarmed),
        l.exec_refused (why := .wrongState) (detail := 0) .disarmRule (by simp) (disarmRule_disarmed present disarmed)⟩,
      fun active => l.exec_refused (why := .wrongState) (detail := 0) .armRule (by simp) (armRule_active present active),
      fun active => ⟨_, l.exec_done .disarmRule (by simp) (disarmRule_active present active), rfl,
        takeRuleOut_rules k r _ s, ?_, fun notArmed => ?_⟩,
      _, l.exec_done .retireRule (by simp) (retireRule_present present), rfl, takeRuleOut_rules k r none s, ?_,
      fun active notArmed => ?_⟩
    · exact effectsLaw_of_warning _ (takeRuleOut_warning k.val r _ s)
    · exact attends_answered (takeRuleOut_attends k.val _ s (contributing_of_state active notArmed)) _ _ _
    · exact effectsLaw_of_warning _ (takeRuleOut_warning k.val r none s)
    · exact attends_answered (takeRuleOut_attends k.val none s (contributing_of_state active notArmed)) _ _ _

end

section
/-! The evaluation of the rules at a publication (R148 to R151). -/

namespace Sys2Proof.Machine

/-! ### The value of a rule (R148, R149) -/

theorem alongSegments_flag (lower : Point) (points : List Point) (h : Int) :
    (alongSegments lower points h).2 ≠ .noRating := by
  induction points generalizing lower with
  | nil => exact fun e => by cases e
  | cons upper rest ih =>
    cases rest with
    | nil =>
      unfold alongSegments
      split <;> exact fun e => by cases e
    | cons next rest =>
      unfold alongSegments
      split
      · exact fun e => by cases e
      · exact ih upper

/-- R60, R62: a lookup flagged NoRating gives no discharge. -/
theorem forwardLookup_noRating {s : State} {h : Int} (flagged : (forwardLookup s h).flag = .noRating) :
    (forwardLookup s h).discharge = none := by
  have rated : ∀ (points : List Point) (h : Int), (rateStage points h).2 = .noRating → (rateStage points h).1 = none := by
    intro points h e
    cases points with
    | nil => rfl
    | cons first rest =>
      by_cases below : h ≤ first.stage
      · rw [rateStage_below below] at e
        cases e
      · rw [rateStage, if_neg below] at e
        exact absurd e (alongSegments_flag first rest h)
  exact rated _ _ flagged

section
variable {rec : StageRecord} {discharge : Option Int} {r : Rule}

theorem value_none (h : rec.quality = .none ∨ r.quantity = .discharge ∧ discharge = none) :
    r.value rec discharge = none := by
  unfold Rule.value
  split
  · rfl
  all_goals
    next present =>
      obtain ⟨quantity, absent⟩ := h.resolve_left fun e => by cases e.symm.trans present
      rw [quantity, absent]

theorem value_some (present : rec.quality ≠ .none) : r.value rec discharge =
    match r.quantity with
    | .stage => rec.stage
    | .rate => some rec.rate
    | .discharge => discharge := by
  unfold Rule.value
  cases quality : rec.quality with
  | none => exact absurd quality present
  | good | failover | held => rfl

/-! ### A rule evaluated (R149 to R151) -/

theorem evaluate_skipped (h : r.value rec discharge = none ∨ r.state = .disarmed) : r.evaluate rec discharge = r := by
  unfold Rule.evaluate
  split
  · rfl
  · next v present =>
    rw [h.resolve_left fun e => by cases e.symm.trans present]

theorem evaluate_trips {v : Int} (value : r.value rec discharge = some v) (h : r.state = .armed ∨ r.state = .latched) :
    r.evaluate rec discharge = r.countTrip rec.time v := by
  unfold Rule.evaluate
  rw [value]
  rcases h with h | h <;> rw [h]

theorem evaluate_clears {v : Int} (value : r.value rec discharge = some v)
    (h : r.state = .tripped ∨ r.state = .acknowledged) : r.evaluate rec discharge = r.countClear rec.time v := by
  unfold Rule.evaluate
  rw [value]
  rcases h with h | h <;> rw [h]

theorem clearedState_eq (h : r.state = .tripped ∨ r.state = .acknowledged) : r.clearedState =
    if r.state = .tripped ∧ r.acknowledgeRequired = true then .latched else .armed := by
  unfold Rule.clearedState
  rcases h with h | h <;> rw [h] <;> cases r.acknowledgeRequired <;> rfl

theorem clearedState_or (r : Rule) : r.clearedState = .latched ∨ r.clearedState = .armed := by
  unfold Rule.clearedState
  split
  · split
    · exact Or.inl rfl
    · exact Or.inr rfl
  · exact Or.inr rfl

end

/-! ### The reasons of an evaluation (R150, R151) -/

theorem anyChange_of {t t' : RuleTable} {change : Rule → Rule → Bool} {k : Fin Config.rules} {r r' : Rule}
    (before : t.get k = some r) (after : t'.get k = some r') (changed : change r r' = true) :
    t.anyChange t' change = true := by
  unfold RuleTable.anyChange
  refine List.any_eq_true.mpr ⟨k, List.mem_finRange k, ?_⟩
  rw [before, after]
  exact changed

theorem evaluateRules_get {s : State} {k : Fin Config.rules} {r : Rule} (present : s.warning.rules.get k = some r) :
    (evaluateRules s).get k = some (r.evaluate s.stage.record s.recordDischarge) := by
  unfold evaluateRules
  exact (Vector.getElem_ofFn k.isLt).trans (congrArg (Option.map _) present)

theorem raiseIf_attends {s : State} {b : Bool} {r q : Reason} (h : s.attends q = true ∨ b = true ∧ q = r)
    (other : r ≠ .answerReady) : (s.raiseIf b r).attends q = true := by
  rcases h with present | ⟨rfl, rfl⟩
  · exact (raiseIf_frame s b r other).raised q present
  · exact raise_attends s q

theorem evaluate_raises {s : State} {k : Fin Config.rules} {r : Rule} (present : s.warning.rules.get k = some r) :
    (tripped r (r.evaluate s.stage.record s.recordDischarge) = true → (evaluate s).attends .ruleTripped = true) ∧
      (cleared r (r.evaluate s.stage.record s.recordDischarge) = true → (evaluate s).attends .ruleCleared = true) := by
  have change : ∀ {c : Rule → Rule → Bool}, c r (r.evaluate s.stage.record s.recordDischarge) = true →
      s.warning.rules.anyChange (evaluateRules s) c = true := fun h => anyChange_of present (evaluateRules_get present) h
  unfold evaluate
  dsimp only
  refine ⟨fun h => (formEffects_frame _).raised _ ?_, fun h => (formEffects_frame _).raised _ ?_⟩
  · exact raiseIf_attends (Or.inl (raiseIf_attends (Or.inr ⟨change h, rfl⟩) nofun)) nofun
  · exact raiseIf_attends (Or.inr ⟨change h, rfl⟩) nofun

/-- R148, LOG 9: whatever the order of the consumers, the reasons of the evaluation are raised. -/
theorem consumePublication_raises {s : State} {k : Fin Config.rules} {r : Rule}
    (present : s.warning.rules.get k = some r) :
    (tripped r (r.evaluate s.stage.record s.recordDischarge) = true →
        (consumePublication s).attends .ruleTripped = true) ∧
      (cleared r (r.evaluate s.stage.record s.recordDischarge) = true →
        (consumePublication s).attends .ruleCleared = true) := by
  have taken : ∀ n, CableFrame (s.setFreeReads n) (gaugingTakesPublication (s.setFreeReads n)) := fun n =>
    gaugingTakesPublication_frame _
  unfold consumePublication
  dsimp only
  refine chooseOutcome_of_all (P := fun t =>
    (tripped r (r.evaluate s.stage.record s.recordDischarge) = true → t.attends .ruleTripped = true) ∧
      (cleared r (r.evaluate s.stage.record s.recordDischarge) = true → t.attends .ruleCleared = true)) _ _ _ ?_ ?_
  · have frame := taken (s.freeReads + 1)
    have discharge : (gaugingTakesPublication (s.setFreeReads (s.freeReads + 1))).recordDischarge = s.recordDischarge := by
      unfold State.recordDischarge forwardLookup
      rw [frame.stage, frame.rating]
      rfl
    have raises := evaluate_raises (s := gaugingTakesPublication (s.setFreeReads (s.freeReads + 1)))
      ((congrArg (fun w : WarningUnit => w.rules.get k) frame.warning).trans present)
    rw [discharge, frame.stage] at raises
    exact raises
  · intro o ho
    rw [List.mem_singleton.mp ho]
    have raises := evaluate_raises (s := s.setFreeReads (s.freeReads + 1)) present
    exact ⟨fun h => (gaugingTakesPublication_frame _).raised _ (raises.1 h),
      fun h => (gaugingTakesPublication_frame _).raised _ (raises.2 h)⟩

/-! ### The rules that a publication leaves -/

/-- R20, R36: the state that the settlement of an interval leaves, before its readers take it. -/
def State.settled (s : State) : State :=
  settle s.stage.interval (s.setStage { s.stage with interval := nextInterval s })

theorem stageIntervalExpiry_eq (s : State) : stageIntervalExpiry s = consumePublication s.settled := rfl

theorem settled_frame (s : State) : CableFrame (s.setStage s.settled.stage) s.settled :=
  settle_frame s.stage.interval (s.setStage { s.stage with interval := nextInterval s })

theorem consumePublication_recordDischarge (s : State) : (consumePublication s).recordDischarge = s.recordDischarge := by
  obtain ⟨w, n, f⟩ := consumePublication_spread s
  unfold State.recordDischarge forwardLookup
  rw [f.stage, f.rating]
  rfl

/-- R148: the record and the discharge of the evaluation are those published. -/
theorem settled_recordDischarge (s : State) : s.settled.recordDischarge = (stageIntervalExpiry s).recordDischarge :=
  (consumePublication_recordDischarge s.settled).symm

theorem stageIntervalExpiry_rule {s : State} {k : Fin Config.rules} {r : Rule}
    (present : s.warning.rules.get k = some r) :
    let t := stageIntervalExpiry s
    let r' := r.evaluate t.stage.record t.recordDischarge
    t.warning.rules.get k = some r' ∧ (tripped r r' = true → t.attends .ruleTripped = true) ∧
      (cleared r r' = true → t.attends .ruleCleared = true) := by
  have settled : s.settled.warning.rules.get k = some r :=
    (congrArg (fun w : WarningUnit => w.rules.get k) (settled_frame s).warning).trans present
  have stage : (stageIntervalExpiry s).stage = s.settled.stage := stageIntervalExpiry_stage s
  have rules : (stageIntervalExpiry s).warning.rules = evaluateRules s.settled :=
    congrArg WarningUnit.rules (stageIntervalExpiry_warning s)
  have raises := consumePublication_raises settled
  have evaluated := evaluateRules_get settled
  rw [settled_recordDischarge, ← stage] at raises evaluated
  exact ⟨(congrArg (fun u : RuleTable => u.get k) rules).trans evaluated, raises⟩

end Sys2Proof.Machine

open Sys2Proof Sys2Proof.Machine

/-- Settles O35: the rule is evaluated on the record that is published, by the cases of its state and of its value. -/
theorem rulesAreEvaluatedAtAPublication : Obligations.RulesAreEvaluatedAtAPublication := by
  intro k r s running present
  refine ⟨stageIntervalExpiry s, exec_stageIntervalExpiry running, ?_⟩
  obtain ⟨left, trips, clears⟩ := stageIntervalExpiry_rule present
  have time : (stageIntervalExpiry s).stage.record.time = s.clock := (stageIntervalExpiry_record s).2.1
  generalize stageIntervalExpiry s = t at *
  refine ⟨fun skipped => ?skipped, fun v available value => ?evaluated⟩
  case skipped =>
    rw [left, evaluate_skipped]
    rcases skipped with none | disarmed | ⟨quantity, h, stage, flagged⟩
    · exact Or.inl (value_none (Or.inl none))
    · exact Or.inr disarmed
    · refine Or.inl (value_none (Or.inr ⟨quantity, ?_⟩))
      rw [State.recordDischarge, stage]
      exact forwardLookup_noRating flagged
  case evaluated =>
    have valued : r.value t.stage.record t.recordDischarge = some v := by
      rw [value_some available]
      cases quantity : r.quantity with
      | stage => rw [quantity] at value; exact value
      | rate => rw [quantity] at value; exact congrArg some value
      | discharge =>
        rw [quantity] at value
        obtain ⟨h, stage, discharge⟩ := value
        dsimp only
        rw [State.recordDischarge, stage]
        exact discharge
    refine ⟨fun counting => ?_, fun contributing => ?_⟩
    · have evaluated := evaluate_trips valued counting
      rw [evaluated, time] at left trips
      refine ⟨fun below => ?_, fun above few => ?_, fun above enough => ?_⟩
      · rw [left, Rule.countTrip, if_pos below]
      · rw [left, Rule.countTrip, if_neg (not_lt.mpr above), if_pos few]
      · have tripping : r.countTrip s.clock v = { r with
            state := .tripped, tripTime := some s.clock, peak := some v, clearTime := none, tripCount := 0,
            clearCount := 0 } := (if_neg (not_lt.mpr above)).trans (if_neg (not_lt.mpr enough))
        rw [tripping] at left trips
        refine ⟨left, trips ?_⟩
        unfold tripped
        rcases counting with h | h <;> rw [h] <;> rfl
    · have evaluated := evaluate_clears valued contributing
      rw [evaluated, time] at left clears
      intro peak
      refine ⟨fun above => ?_, fun below few => ?_, fun below enough => ?_⟩
      · rw [left, Rule.countClear, if_pos above]
        rfl
      · rw [left, Rule.countClear, if_neg (not_lt.mpr below), if_pos few]
        rfl
      · have clearing : r.countClear s.clock v = { r with
            peak := some peak, state := r.clearedState, clearTime := some s.clock, tripCount := 0, clearCount := 0 } :=
          (if_neg (not_lt.mpr below)).trans (if_neg (not_lt.mpr enough))
        rw [clearing] at left clears
        refine ⟨?_, clears ?_⟩
        · rw [left, clearedState_eq contributing]
        · unfold cleared
          dsimp only
          rcases contributing with h | h <;> rcases clearedState_or r with e | e <;> rw [h, e] <;> rfl

end

section
/-! WRITE FIELDS (R46 to R48, R81, R82): one value taken, the commits of a point and of a vertical, and a request of
several values as its first value and the rest. -/

namespace Sys2Proof.Machine

/-! ### An entry put in a table -/

/-- R48, R82: an entry replaced, or put after the last, told by what stands before and after it. -/
theorem set_or_append {α : Type} (l : List α) {k : Nat} (a : α) (h : k ≤ l.length) :
    (if k < l.length then l.set k a else l ++ [a]) = l.take k ++ [a] ++ l.drop (k + 1) := by
  split
  · next inside => rw [List.set_eq_take_append_cons_drop, if_pos inside, List.append_assoc]; rfl
  · next outside =>
    have e : k = l.length := by omega
    rw [e, List.take_length, List.drop_eq_nil_of_le (Nat.le_succ _), List.append_nil]

theorem mem_take_append_drop {α : Type} (l : List α) (k : Nat) (a : α) :
    a ∈ l.take k ++ l.drop (k + 1) ↔ ∃ j, l[j]? = some a ∧ j ≠ k := by
  rw [← List.eraseIdx_eq_take_drop_succ, List.mem_eraseIdx_iff_getElem?]
  exact exists_congr fun j => and_comm

/-! ### The commits (R48, R81, R82) -/

section
variable {s : State} {k : Nat} {p : Point}

theorem commitPoint_eq (s : State) (k : Nat) (p : Point) :
    commitPoint s k p =
      if ¬ (s.settings.read .stageFloor ≤ p.stage ∧ p.stage ≤ s.settings.read .stageCeiling) then .error (.badField, 0)
      else if ¬ (0 ≤ p.discharge ∧ p.discharge ≤ 16000000) then .error (.badField, 1)
      else if s.rating.draft.length < k then .error (.gap, 0)
      else if (s.rating.draft.take k ++ s.rating.draft.drop (k + 1)).any fun q => decide (q.stage = p.stage) then
        .error (.badField, 0)
      else if k < s.rating.draft.length then .ok (s.rating.draft.set k p)
      else .ok (s.rating.draft ++ [p]) := by
  unfold commitPoint
  simp only [within_iff]
  rfl

/-- R48: the stage of the point stands in no other slot. -/
theorem fresh_iff (draft : List Point) (k : Nat) (stage : Int) :
    (draft.take k ++ draft.drop (k + 1)).any (fun q => decide (q.stage = stage)) = true ↔
      ¬ ∀ j q, draft[j]? = some q → j ≠ k → q.stage ≠ stage := by
  rw [List.any_eq_true]
  constructor
  · rintro ⟨q, member, same⟩ fresh
    obtain ⟨j, there, other⟩ := (mem_take_append_drop draft k q).mp member
    exact fresh j q there other (of_decide_eq_true same)
  · intro h
    by_contra none
    refine h fun j q there other same => none ⟨q, ?_, decide_eq_true same⟩
    exact (mem_take_append_drop draft k q).mpr ⟨j, there, other⟩

theorem commitPoint_ok (limits : s.settings.read .stageFloor ≤ p.stage ∧ p.stage ≤ s.settings.read .stageCeiling)
    (range : 0 ≤ p.discharge ∧ p.discharge ≤ 16000000) (fits : k ≤ s.rating.draft.length)
    (fresh : ∀ j q, s.rating.draft[j]? = some q → j ≠ k → q.stage ≠ p.stage) :
    commitPoint s k p = .ok (s.rating.draft.take k ++ [p] ++ s.rating.draft.drop (k + 1)) := by
  rw [commitPoint_eq, if_neg (not_not.mpr limits), if_neg (not_not.mpr range), if_neg (not_lt.mpr fits),
    if_neg (fun h => (fresh_iff _ _ _).mp h fresh), ← set_or_append _ _ fits]
  split <;> rfl

theorem plan_none {w : Word} (h : 3 < w.toNat) : MeasurePlan.ofCode w = none := by
  have other : ∀ k ≤ 3, w ≠ BitVec.ofNat 32 k := fun k hk => word_ne_of_lt h hk (by omega)
  exact (if_neg (other 0 (by omega))).trans ((if_neg (other 1 (by omega))).trans
    ((if_neg (other 2 (by omega))).trans (if_neg (other 3 le_rfl))))

theorem plan_some {w : Word} (h : w.toNat ≤ 3) : ∃ p, MeasurePlan.ofCode w = some p := by
  obtain e | e | e | e : w.toNat = 0 ∨ w.toNat = 1 ∨ w.toNat = 2 ∨ w.toNat = 3 := by omega
  · exact ⟨.single, by rw [word_eq_of_toNat e]; rfl⟩
  · exact ⟨.twoPoint, by rw [word_eq_of_toNat e]; rfl⟩
  · exact ⟨.threePoint, by rw [word_eq_of_toNat e]; rfl⟩
  · exact ⟨.surfaceOnly, by rw [word_eq_of_toNat e]; rfl⟩

theorem plan_code (p : MeasurePlan) : MeasurePlan.ofCode (BitVec.ofInt 32 p.code) = some p := by cases p <;> rfl

theorem skip_none {w : Word} (h : 1 < w.toNat) : SkipFlag.ofCode w = none := by
  have other : ∀ k ≤ 1, w ≠ BitVec.ofNat 32 k := fun k hk => word_ne_of_lt h hk (by omega)
  exact (if_neg (other 0 (by omega))).trans (if_neg (other 1 le_rfl))

theorem skip_code (f : SkipFlag) : SkipFlag.ofCode (BitVec.ofInt 32 f.code) = some f := by cases f <;> rfl

/-- R82: a distance lies between those of the neighbours in the table. -/
theorem betweenNeighbours_iff (vs : List Vertical) (k : Nat) (distance : Int) :
    betweenNeighbours vs k distance = true ↔
      (∀ v, 0 < k → vs[k - 1]? = some v → v.distance < distance) ∧ ∀ v, vs[k + 1]? = some v → distance < v.distance := by
  unfold betweenNeighbours
  rw [Bool.and_eq_true]
  refine and_congr ?_ ?_
  · cases k with
    | zero => exact ⟨fun _ _ h => absurd h (Nat.lt_irrefl 0), fun _ => rfl⟩
    | succ k =>
      rw [Nat.add_sub_cancel]
      dsimp only
      cases vs[k]? with
      | none => exact ⟨fun _ _ _ h => (nomatch h), fun _ => rfl⟩
      | some v =>
        exact decide_eq_true_iff.trans ⟨fun h w _ e => Option.some.inj e ▸ h, fun h => h v (Nat.succ_pos k) rfl⟩
  · cases vs[k + 1]? with
    | none => exact ⟨fun _ _ h => (nomatch h), fun _ => rfl⟩
    | some v => exact decide_eq_true_iff.trans ⟨fun h w e => Option.some.inj e ▸ h, fun h => h v rfl⟩

variable {distance bed plan skip : Word}

theorem within_span (h : s.settings.read .spanStart ≤ distance.toInt ∧ distance.toInt ≤ s.settings.read .spanEnd) :
    within (s.setting .spanStart) (s.setting .spanEnd) distance.toInt = true := (within_iff _ _ _).mpr h

theorem within_bed (h : -2000 ≤ bed.toInt ∧ bed.toInt ≤ 30000) :
    within Config.stageMin Config.stageMax bed.toInt = true := (within_iff _ _ _).mpr h

theorem commitVertical_locked (locked : s.sectionLocked = true) :
    commitVertical s k distance bed plan skip = .error (.locked, 0) := if_pos locked

variable (free : ¬ s.sectionLocked = true)
include free

theorem commitVertical_span
    (h : ¬ (s.settings.read .spanStart ≤ distance.toInt ∧ distance.toInt ≤ s.settings.read .spanEnd)) :
    commitVertical s k distance bed plan skip = .error (.badField, 0) := by
  refine (if_neg free).trans (if_pos ?_)
  rwa [within_iff]

variable (span : s.settings.read .spanStart ≤ distance.toInt ∧ distance.toInt ≤ s.settings.read .spanEnd)
include span

theorem commitVertical_bed (h : ¬ (-2000 ≤ bed.toInt ∧ bed.toInt ≤ 30000)) :
    commitVertical s k distance bed plan skip = .error (.badField, 1) := by
  refine (if_neg free).trans ((if_neg (not_not.mpr (within_span span))).trans (if_pos ?_))
  rwa [within_iff]

variable (bedFits : -2000 ≤ bed.toInt ∧ bed.toInt ≤ 30000)
include bedFits

/-- R81: the checks on the distance and the bed passed. -/
theorem commitVertical_plan (h : MeasurePlan.ofCode plan = none) :
    commitVertical s k distance bed plan skip = .error (.badField, 2) := by
  unfold commitVertical
  rw [if_neg free, if_neg (not_not.mpr (within_span span)), if_neg (not_not.mpr (within_bed bedFits)), h]

theorem commitVertical_skip {p : MeasurePlan} (h : MeasurePlan.ofCode plan = some p) (h' : SkipFlag.ofCode skip = none) :
    commitVertical s k distance bed plan skip = .error (.badField, 3) := by
  unfold commitVertical
  rw [if_neg free, if_neg (not_not.mpr (within_span span)), if_neg (not_not.mpr (within_bed bedFits)), h, h']

variable {p : MeasurePlan} {f : SkipFlag} (named : MeasurePlan.ofCode plan = some p) (flagged : SkipFlag.ofCode skip = some f)
include named flagged

theorem commitVertical_named :
    commitVertical s k distance bed plan skip =
      if s.verticals.length < k then .error (.gap, 0)
      else if ¬ betweenNeighbours s.verticals k distance.toInt = true then .error (.badField, 0)
      else if k < s.verticals.length then
        .ok (s.verticals.set k { distance := distance.toInt, bed := bed.toInt, plan := p, skip := f, source := .survey,
                                 soundedTime := none })
      else
        .ok (s.verticals ++ [{ distance := distance.toInt, bed := bed.toInt, plan := p, skip := f, source := .survey,
                               soundedTime := none }]) := by
  unfold commitVertical
  rw [if_neg free, if_neg (not_not.mpr (within_span span)), if_neg (not_not.mpr (within_bed bedFits)), named, flagged]

theorem commitVertical_ok (fits : k ≤ s.verticals.length)
    (between : betweenNeighbours s.verticals k distance.toInt = true) :
    commitVertical s k distance bed plan skip = .ok (s.verticals.take k ++
      [{ distance := distance.toInt, bed := bed.toInt, plan := p, skip := f, source := .survey, soundedTime := none }] ++
      s.verticals.drop (k + 1)) := by
  rw [commitVertical_named free span bedFits named flagged, if_neg (not_lt.mpr fits), if_neg (not_not.mpr between),
    ← set_or_append _ _ fits]
  split <;> rfl

end

/-! ### One value taken (R46, R47) -/

section
variable {s : State} {w : Word}

theorem writeFields_active (bytes : List Byte) (short : (readWords bytes).isSome = true) (some : bytes ≠ [])
    (few : bytes.length ≤ 64) (active : s.port.cursor.table = .active) :
    writeFields bytes s = { state := s, reply := .refusedFields .readOnly 0 0 } := by
  obtain ⟨ws, read⟩ := Option.isSome_iff_exists.mp short
  have length := readWords_length read
  have present : bytes.length ≠ 0 := fun h => some (List.eq_nil_of_length_eq_zero h)
  unfold writeFields
  rw [read]
  dsimp only
  rw [if_neg (by omega), if_pos active]

theorem writeFields_length {bytes : List Byte} (h : bytes = [] ∨ 64 < bytes.length ∨ bytes.length % 4 ≠ 0) :
    writeFields bytes s = { state := s, reply := .refusedFields .badField 0 0 } := by
  unfold writeFields
  split
  · rfl
  · next ws read =>
    have length := readWords_length read
    refine if_pos ?_
    rcases h with rfl | long | odd
    · rw [List.length_nil] at length
      omega
    · omega
    · omega

theorem writeFields_values {ws : List Word} (some : ws ≠ []) (few : ws.length ≤ 16) (open_ : s.port.cursor.table ≠ .active) :
    writeFields (paramBytes ws) s = takeValues ws 0 s := by
  have present : ws.length ≠ 0 := fun h => some (List.eq_nil_of_length_eq_zero h)
  unfold writeFields
  rw [readWords_paramBytes]
  dsimp only
  rw [if_neg (by omega), if_neg open_]

/-- R46, R47: the state after one value: it is kept, or it completes an entry that is committed. -/
def takeValue (w : Word) (s : State) : Except (Reject × Nat) State :=
  if (s.port.cursor.fields ++ [w]).length < s.port.cursor.table.fieldCount then
    .ok (s.setCursor { s.port.cursor with fields := s.port.cursor.fields ++ [w] })
  else (commitEntry (s.port.cursor.fields ++ [w]) s).map (State.advanceCursor · 1)

/-- R47: the state after a refused value. -/
def State.fieldsDropped (s : State) : State := s.setCursor { s.port.cursor with fields := [] }

theorem takeValues_error {e : Reject × Nat} (h : takeValue w s = .error e) (ws : List Word) (n : Nat) :
    takeValues (w :: ws) n s = { state := s.fieldsDropped, reply := .refusedFields e.1 e.2 (n + 1) } := by
  unfold takeValue at h
  rw [takeValues]
  dsimp only
  split at h
  · cases h
  · next complete =>
    rw [if_neg complete]
    cases committed : commitEntry (s.port.cursor.fields ++ [w]) s with
    | error e' =>
      rw [committed] at h
      cases h
      rfl
    | ok t =>
      rw [committed] at h
      cases h

theorem takeValues_ok {t : State} (h : takeValue w s = .ok t) (ws : List Word) (n : Nat) :
    takeValues (w :: ws) n s = takeValues ws (n + 1) t := by
  unfold takeValue at h
  rw [takeValues]
  dsimp only
  split at h
  · next partly =>
    cases h
    exact if_pos partly
  · next complete =>
    rw [if_neg complete]
    cases committed : commitEntry (s.port.cursor.fields ++ [w]) s with
    | error e' =>
      rw [committed] at h
      cases h
    | ok t =>
      rw [committed] at h
      cases h
      rfl

theorem takeValue_partial (h : s.port.cursor.fields.length + 1 < s.port.cursor.table.fieldCount) :
    takeValue w s = .ok (s.setCursor { s.port.cursor with fields := s.port.cursor.fields ++ [w] }) :=
  if_pos (by rwa [List.length_append])

/-- R48: the last value of a point. -/
theorem takeValue_point {h : Word} (table : s.port.cursor.table = .draft) (fields : s.port.cursor.fields = [h]) :
    takeValue w s = ((commitPoint s s.port.cursor.index { stage := h.toInt, discharge := w.toInt }).map
      fun draft => (s.withDraft draft).advanceCursor 1) := by
  unfold takeValue
  rw [fields, table, if_neg (by exact lt_irrefl 2)]
  unfold commitEntry
  rw [table]
  dsimp only [List.cons_append, List.nil_append]
  cases commitPoint s s.port.cursor.index { stage := h.toInt, discharge := w.toInt } with
  | error e => rfl
  | ok draft => exact congrArg (fun t : State => Except.ok (t.advanceCursor 1)) (draftChange_withDraft draft s)

/-- R81: the last value of a vertical, whose commit tests an Armed run. -/
theorem takeValue_vertical {d b pl : Word} (table : s.port.cursor.table = .verticals)
    (fields : s.port.cursor.fields = [d, b, pl]) :
    takeValue w s = ((commitVertical s s.port.cursor.index d b pl w).map
      fun vs => (startIfReady (s.setVerticals vs)).advanceCursor 1) := by
  unfold takeValue
  rw [fields, table, if_neg (by exact lt_irrefl 4)]
  unfold commitEntry
  rw [table]
  dsimp only [List.cons_append, List.nil_append]
  cases commitVertical s s.port.cursor.index d b pl w with
  | error e => rfl
  | ok vs => rfl

end

/-! ### The answers (R46, R47) -/

section
variable {s t : State} {w : Word}

theorem paramBytes_one (w : Word) : paramBytes [w] = beWord w := List.append_nil _

theorem Listens.exec_values (l : Listens s) {ws : List Word} (some : ws ≠ []) (few : ws.length ≤ 16)
    (open_ : s.port.cursor.table ≠ .active) : exec (.writeFields (paramBytes ws)) s =
      .next ((takeValues ws 0 s).state.fillSlot ((takeValues ws 0 s).reply.answer 0x21)) :=
  l.exec_taken .writeFields (by rw [paramBytes_length]; omega) (writeFields_values some few open_)

theorem Listens.exec_value_error (l : Listens s) (open_ : s.port.cursor.table ≠ .active) {e : Reject × Nat}
    (h : takeValue w s = .error e) : exec (.writeFields (beWord w)) s =
      .next (s.fieldsDropped.answered .refused 0x21 (be1 e.1.code ++ be1 e.2 ++ be1 1)) := by
  have taken := l.exec_values (List.cons_ne_nil w []) (Nat.succ_le_succ (Nat.zero_le 15)) open_
  rw [takeValues_error h, paramBytes_one] at taken
  exact taken

theorem Listens.exec_value_ok (l : Listens s) (open_ : s.port.cursor.table ≠ .active)
    (h : takeValue w s = .ok t) : exec (.writeFields (beWord w)) s =
      .next (t.answered .done 0x21 (be1 t.port.cursor.index ++ be1 t.port.cursor.fields.length ++ [1])) := by
  have taken := l.exec_values (List.cons_ne_nil w []) (Nat.succ_le_succ (Nat.zero_le 15)) open_
  rw [takeValues_ok h, paramBytes_one] at taken
  exact taken

theorem Listens.exec_writeActive (l : Listens s) {bytes : List Byte} (read : (readWords bytes).isSome = true)
    (some : bytes ≠ []) (few : bytes.length ≤ 64) (active : s.port.cursor.table = .active) :
    exec (.writeFields bytes) s = .next (s.answered .refused 0x21 [10, 0, 0]) :=
  l.exec_taken .writeFields (by omega) (writeFields_active bytes read some few active)

/-! ### Several values as the first and the rest (R47) -/

/-- R46: one value taken touches neither the slot nor AnswerReady, and leaves the cursor on its table. -/
theorem takeValue_leaves (h : takeValue w s = .ok t) :
    t.port.slot = s.port.slot ∧ t.port.sdo = s.port.sdo ∧ t.attends .answerReady = s.attends .answerReady ∧
      t.port.cursor.table = s.port.cursor.table ∧ t.resetHeld = s.resetHeld ∧ t.port.ignoring = s.port.ignoring := by
  unfold takeValue at h
  split at h
  · cases h
    exact ⟨rfl, rfl, rfl, rfl, rfl, rfl⟩
  · cases committed : commitEntry (s.port.cursor.fields ++ [w]) s with
    | error e => rw [committed] at h; cases h
    | ok u =>
      rw [committed] at h
      cases h
      unfold commitEntry at committed
      split at committed
      · split at committed
        · cases committed
        · cases committed
          obtain ⟨r, f⟩ := draftChange_frame _ s
          have table := congrArg Cursor.table f.cursor
          exact ⟨f.slot, f.sdo, f.answerReady, table, f.resetHeld, f.ignoring⟩
      · split at committed
        · cases committed
        · next vs _ =>
          cases committed
          have f := startIfReady_frame (s.setVerticals vs)
          have table := congrArg Cursor.table f.cursor
          exact ⟨f.slot, f.sdo, f.answerReady, table, f.resetHeld, f.ignoring⟩
      · cases committed

/-- Two states with the same answer in their slots are one, where they agreed on what the answer covers. -/
theorem answered_inj {status status' : Status} {code code' : Byte} {body body' : List Byte}
    (h : s.answered status code body = t.answered status' code' body') (slot : s.port.slot = t.port.slot)
    (sdo : s.port.sdo = t.port.sdo) (ready : s.attends .answerReady = t.attends .answerReady) : s = t := by
  have attention : s.port.attention = t.port.attention := by
    have raised : s.port.attention ||| 0x002 = t.port.attention ||| 0x002 :=
      congrArg (fun u : State => u.port.attention) h
    refine BitVec.eq_of_getLsbD_eq fun k hk => ?_
    by_cases one : k = 1
    · rw [one]
      exact ready
    · have bit := congrArg (fun v : BitVec 12 => v.getLsbD k) raised
      have other : (0x002 : BitVec 12).getLsbD k = false := by
        have all : ∀ j : Fin 12, j.val ≠ 1 → (0x002 : BitVec 12).getLsbD j.val = false := by decide
        exact all ⟨k, hk⟩ one
      simpa only [BitVec.getLsbD_or, other, Bool.or_false] using bit
  have port : s.port = t.port := by
    have kept : ∀ u : State, u.port = { (u.answered status code body).port with
        slot := u.port.slot, attention := u.port.attention, sdo := u.port.sdo } := fun u => rfl
    have same : ({ (s.answered status code body).port with
        slot := s.port.slot, attention := s.port.attention, sdo := s.port.sdo } : Port) =
        { (t.answered status' code' body').port with
          slot := t.port.slot, attention := t.port.attention, sdo := t.port.sdo } := by
      rw [h, slot, attention, sdo]
    exact same
  have back : ∀ (u : State) (status : Status) (code : Byte) (body : List Byte),
      u = (u.answered status code body).setPort u.port := fun _ _ _ _ => rfl
  rw [back s status code body, back t status' code' body', h, port]

theorem fillSlot_fillSlot (s : State) (a b : Answer) : (s.fillSlot a).fillSlot b = s.fillSlot b := by
  have again : addReason (addReason s.port.attention .answerReady) .answerReady =
      addReason s.port.attention .answerReady := by
    unfold addReason
    rw [BitVec.or_assoc, BitVec.or_self]
  have port : ((s.fillSlot a).fillSlot b).port = (s.fillSlot b).port :=
    congrArg (fun x : BitVec 12 => { (s.fillSlot b).port with attention := x }) again
  exact congrArg (fun p : Port => s.setPort p) port

/-- R47: the values taken before are counted in the answer, and change nothing else. -/
theorem takeValues_counted (ws : List Word) (s : State) : ∃ (status : Status) (head : List Byte) (c : Nat), ∀ n,
    (takeValues ws n s).state = (takeValues ws 0 s).state ∧
      (takeValues ws n s).reply.answer 0x21 =
        { status := status, code := 0x21, body := head ++ [BitVec.ofNat 8 (n + c)] } := by
  have byte : ∀ n : Nat, be1 n = [BitVec.ofNat 8 n] := fun n => congrArg (fun b : Byte => [b]) (BitVec.ofInt_natCast 8 n)
  induction ws generalizing s with
  | nil =>
    refine ⟨.done, be1 s.port.cursor.index ++ be1 s.port.cursor.fields.length, 0, fun n => ⟨rfl, ?_⟩⟩
    rw [Nat.add_zero, ← byte n]
    rfl
  | cons w ws ih =>
    cases taken : takeValue w s with
    | error e =>
      refine ⟨.refused, be1 e.1.code ++ be1 e.2, 1, fun n => ?_⟩
      rw [takeValues_error taken, takeValues_error taken, ← byte (n + 1)]
      exact ⟨rfl, rfl⟩
    | ok t =>
      obtain ⟨status, head, c, counted⟩ := ih t
      refine ⟨status, head, 1 + c, fun n => ?_⟩
      rw [takeValues_ok taken, takeValues_ok taken, (counted (n + 1)).1, (counted (0 + 1)).1, (counted (n + 1)).2,
        Nat.add_assoc]
      exact ⟨rfl, rfl⟩

end

end Sys2Proof.Machine

open Sys2Proof Sys2Proof.Machine

/-- Settles O37: one value by the table of the cursor and the fields that it holds, and several values as the first and
the rest, with one more value taken. -/
theorem writeFieldsFillsAndCommits : Obligations.WriteFieldsFillsAndCommits := by
  refine ⟨fun w s running heard empty => ?one, fun w ws s t running heard empty more few => ?several⟩
  case one =>
    have l : Listens s := ⟨running, heard, empty⟩
    intro c request placed refused
    refine ⟨fun open_ partly => ?_, fun h table fields => ?point, fun d b pl table fields => ?vertical,
      fun active => ?_, fun bytes short bad => ?_⟩
    · refine (l.exec_value_ok open_ (takeValue_partial partly)).trans (congrArg _ (congrArg _ ?_))
      show be1 c.index ++ be1 ((c.fields ++ [w]).length : Nat) ++ [1] = _
      rw [List.length_append]
      rfl
    case point =>
      intro p limits range fresh
      have open_ : c.table ≠ .active := by rw [table]; exact nofun
      have taken := takeValue_point (w := w) table fields
      have fails : ∀ {why : Reject} {detail : Nat}, commitPoint s c.index p = .error (why, detail) →
          exec request s = .next ((placed s c.index []).answered .refused 0x21
            (be1 why.code ++ be1 detail ++ be1 1)) := fun e =>
        l.exec_value_error (e := (_, _)) open_ (taken.trans (congrArg _ e))
      have checks := commitPoint_eq s c.index p
      refine ⟨fun n0 => fails (checks.trans (if_pos n0)),
        fun h0 n1 => fails (checks.trans ((if_neg (not_not.mpr h0)).trans (if_pos n1))),
        fun h0 h1 n2 => fails (checks.trans ((if_neg (not_not.mpr h0)).trans ((if_neg (not_not.mpr h1)).trans (if_pos n2)))),
        fun h0 h1 h2 n3 => fails (checks.trans ((if_neg (not_not.mpr h0)).trans ((if_neg (not_not.mpr h1)).trans
          ((if_neg (not_lt.mpr h2)).trans (if_pos ((fresh_iff _ _ _).mpr n3)))))),
        fun h0 h1 h2 h3 => ?_⟩
      have committed := taken.trans (congrArg _ (commitPoint_ok (k := c.index) (p := p) h0 h1 h2 h3))
      have cursor : (s.withDraft (s.rating.draft.take c.index ++ [p] ++ s.rating.draft.drop (c.index + 1))).port.cursor = c := by
        rw [← draftChange_withDraft]
        obtain ⟨r, f⟩ := draftChange_frame (s.rating.draft.take c.index ++ [p] ++ s.rating.draft.drop (c.index + 1)) s
        exact f.cursor
      have advanced : (s.withDraft (s.rating.draft.take c.index ++ [p] ++ s.rating.draft.drop (c.index + 1))).advanceCursor 1 =
          placed (s.withDraft (s.rating.draft.take c.index ++ [p] ++ s.rating.draft.drop (c.index + 1)))
            ((c.index + 1) % 48) [] := by
        unfold State.advanceCursor
        rw [cursor, table]
        rfl
      exact l.exec_value_ok open_ (committed.trans (congrArg Except.ok advanced))
    case vertical =>
      intro locked span bed between
      have open_ : c.table ≠ .active := by rw [table]; exact nofun
      have taken := takeValue_vertical (w := w) table fields
      have fails : ∀ {why : Reject} {detail : Nat}, commitVertical s c.index d b pl w = .error (why, detail) →
          exec request s = .next ((placed s c.index []).answered .refused 0x21
            (be1 why.code ++ be1 detail ++ be1 1)) := fun e =>
        l.exec_value_error (e := (_, _)) open_ (taken.trans (congrArg _ e))
      have unlocked : ¬ locked → ¬ s.sectionLocked = true := fun free h => free ((locks_iff _).mp h)
      refine ⟨fun h => fails (commitVertical_locked ((locks_iff _).mpr h)),
        fun h0 n1 => fails (commitVertical_span (unlocked h0) n1),
        fun h0 h1 n2 => fails (commitVertical_bed (unlocked h0) h1 n2),
        fun h0 h1 h2 n3 => fails (commitVertical_plan (unlocked h0) h1 h2 (plan_none n3)),
        fun h0 h1 h2 h3 n4 => ?_, fun plan flag plan_eq flag_eq h0 h1 h2 => ?_⟩
      · obtain ⟨p, hp⟩ := plan_some h3
        exact fails (commitVertical_skip (unlocked h0) h1 h2 hp (skip_none n4))
      · have named : MeasurePlan.ofCode pl = some plan := plan_eq ▸ plan_code plan
        have flagged : SkipFlag.ofCode w = some flag := flag_eq ▸ skip_code flag
        have checks := commitVertical_named (k := c.index) (unlocked h0) h1 h2 named flagged
        refine ⟨fun gap => fails (checks.trans (if_pos gap)),
          fun fits out => fails (checks.trans ((if_neg (not_lt.mpr fits)).trans
            (if_pos fun h => out ((betweenNeighbours_iff _ _ _).mp h)))), fun fits inside => ?_⟩
        intro v edited waits
        have committed := taken.trans (congrArg _ (commitVertical_ok (k := c.index) (unlocked h0) h1 h2 named flagged fits
          ((betweenNeighbours_iff _ _ _).mpr inside)))
        have waiting : startIfReady (s.setVerticals edited) = s.setVerticals edited := startIfReady_waits waits
        have advanced : (startIfReady (s.setVerticals edited)).advanceCursor 1 =
            placed { s with verticals := edited } ((c.index + 1) % 32) [] := by
          rw [waiting]
          unfold State.advanceCursor
          rw [setVerticals_port, table]
          rfl
        exact l.exec_value_ok open_ (committed.trans (congrArg Except.ok advanced))
    · exact l.exec_writeActive (by rw [readWords_beWord]; rfl) (List.cons_ne_nil _ _) (by simp) active
    · exact l.exec_taken .writeFields short (writeFields_length bad)
  case several =>
    have l : Listens s := ⟨running, heard, empty⟩
    intro all
    by_cases open_ : s.port.cursor.table = .active
    · have single := l.exec_writeActive (bytes := beWord w) (by rw [readWords_beWord]; rfl) (List.cons_ne_nil _ _)
        (by simp) open_
      have both : exec all s = _ := l.exec_writeActive (bytes := paramBytes (w :: ws))
        (by rw [readWords_paramBytes]; rfl) (List.cons_ne_nil _ _) (by rw [paramBytes_length, List.length_cons]; omega) open_
      refine ⟨fun body h => both.trans (single.symm.trans h), fun u status first head n slot sdo ready h _ => ?_⟩
      have status := single.symm.trans h
      injection status with status
      cases congrArg (fun v : State => v.port.slot.map Answer.status) status
    · have both : exec all s = _ := l.exec_values (ws := w :: ws) (List.cons_ne_nil _ _)
        (by rw [List.length_cons]; omega) open_
      cases taken : takeValue w s with
      | error e =>
        have single := l.exec_value_error open_ taken
        rw [takeValues_error taken] at both
        refine ⟨fun body h => both.trans (single.symm.trans h), fun u status first head n slot sdo ready h _ => ?_⟩
        have status := single.symm.trans h
        injection status with status
        cases congrArg (fun v : State => v.port.slot.map Answer.status) status
      | ok t' =>
        have single := l.exec_value_ok open_ taken
        refine ⟨fun body h => ?_, fun u status first head n slot sdo ready h rest => ?_⟩
        · have status := single.symm.trans h
          injection status with status
          cases congrArg (fun v : State => v.port.slot.map Answer.status) status
        · have same := single.symm.trans h
          injection same with same
          obtain ⟨slot', sdo', ready', table, running', heard'⟩ := takeValue_leaves taken
          obtain rfl : t' = t := answered_inj same (slot'.trans (empty.trans slot.symm)) (sdo'.trans sdo.symm)
            (ready'.trans ready.symm)
          have l' : Listens t' := ⟨running'.trans running, heard'.trans heard, slot⟩
          have restTaken := (l'.exec_values more (by omega) fun active => open_ (table ▸ active)).symm.trans rest
          injection restTaken with restTaken
          obtain ⟨status', head', count, counted⟩ := takeValues_counted ws t'
          rw [(counted 0).2, Nat.zero_add] at restTaken
          have answer := congrArg (fun v : State => v.port.slot) restTaken
          simp only [fillSlot_port_slot, State.answered, Option.some.injEq, Answer.mk.injEq, true_and] at answer
          obtain ⟨rfl, body⟩ := answer
          obtain ⟨rfl, last⟩ := List.append_inj' body rfl
          have next : BitVec.ofNat 8 (1 + count) = n + 1 := by
            rw [Nat.add_comm, BitVec.ofNat_add]
            exact congrArg (fun b : Byte => b + 1) (List.cons.inj last).1
          rw [takeValues_ok taken, (counted (0 + 1)).1, (counted (0 + 1)).2, Nat.zero_add, next] at both
          rw [both, ← fillSlot_fillSlot _ { status := status', code := 0x21, body := head' ++ [BitVec.ofNat 8 count] },
            restTaken]
          exact congrArg _ (fillSlot_fillSlot u { status := status', code := 0x21, body := head' ++ [n] } _)

end

section
/-! The start of an Armed run (R121, R123): at the publication that meets its trigger, in either order of the readers, at
the instant CableInhibit leaves, and at a section edit. -/

namespace Sys2Proof.Machine

/-! ### What a publication or an edit leaves of the carriage (R121) -/

/-- R121: the carriage, the section, the settings and the clock are those of a state, and its run has become another
record. -/
structure StandsAs (s : State) (r : RunRecord) (t : State) : Prop where
  clock : t.clock = s.clock
  settings : t.settings = s.settings
  verticals : t.verticals = s.verticals
  cable : t.cable = s.cable
  gauging : t.gauging = { s.gauging with run := r }

namespace StandsAs

variable {s t u : State} {r : RunRecord}

theorem refl (s : State) : StandsAs s s.gauging.run s := ⟨rfl, rfl, rfl, rfl, rfl⟩

theorem run (h : StandsAs s r t) : t.run = r := congrArg GaugingUnit.run h.gauging

theorem alike (h : StandsAs s r t) (clock : u.clock = t.clock) (settings : u.settings = t.settings)
    (verticals : u.verticals = t.verticals) (cable : u.cable = t.cable) (gauging : u.gauging = t.gauging) :
    StandsAs s r u :=
  ⟨clock.trans h.clock, settings.trans h.settings, verticals.trans h.verticals, cable.trans h.cable,
    gauging.trans h.gauging⟩

theorem setWarning (h : StandsAs s r t) (w : WarningUnit) : StandsAs s r (t.setWarning w) := h.alike rfl rfl rfl rfl rfl

theorem setFreeReads (h : StandsAs s r t) (n : Nat) : StandsAs s r (t.setFreeReads n) := h.alike rfl rfl rfl rfl rfl

theorem raiseIf (h : StandsAs s r t) (b : Bool) (q : Reason) : StandsAs s r (t.raiseIf b q) := by
  cases b <;> exact h.alike rfl rfl rfl rfl rfl

theorem setRun (h : StandsAs s r t) (r' : RunRecord) : StandsAs s r' (t.setRun r') :=
  ⟨h.clock, h.settings, h.verticals, h.cable, congrArg (fun g : GaugingUnit => { g with run := r' }) h.gauging⟩

/-! ### The run starts, or waits (R121) -/

theorem waits (h : StandsAs s r t) (held : r.triggerMet ≠ some true ∨ t.inhibited = true) : startIfReady t = t := by
  refine startIfReady_waits fun ready => ?_
  obtain ⟨-, met, free, -⟩ := ready
  rcases held with unmet | held
  · exact unmet ((congrArg RunRecord.triggerMet h.run).symm.trans met)
  · exact (inhibited_iff t).mp held free

/-- R121: the run of a StandsAs state that may start does. -/
theorem starts {i : Nat} {v : Vertical} (h : StandsAs s { s.gauging.run with triggerMet := some true } t)
    (armed : s.gauging.run.state = .armed) (departs : CanDepart s v) (first : FirstMeasured s.verticals i v)
    (enough : 2 ≤ (s.verticals.filter fun v => v.skip == .measure).length) (free : t.inhibited = false) :
    startIfReady t = startRunning t ∧ RunBegins i v s (startRunning t) := by
  have armed' : t.gauging.run.state = .armed := (congrArg RunRecord.state h.run).trans armed
  have free' := (inhibited_eq_false t).mp free
  have first' : FirstMeasured t.verticals i v := by rw [h.verticals]; exact first
  have departs' : CanDepart t v := by
    obtain ⟨parked, idle, top, short⟩ := departs
    have position : t.position = s.position := by
      unfold State.position State.setting
      rw [h.settings, h.cable]
    exact ⟨by rw [h.cable]; exact parked, by rw [h.cable]; exact idle,
      (asserted_congr .top (congrArg Cableway.contacts h.cable) h.settings).trans top, by rw [position]; exact short⟩
  refine ⟨startIfReady_ready ⟨armed', congrArg RunRecord.triggerMet h.run, free', by rw [h.verticals]; exact enough⟩, ?_⟩
  obtain ⟨⟨entered, state, step, current, time, rest⟩, -⟩ := startRunning_departs armed' first' departs' free'
  have results : t.startResults = s.startResults := by
    unfold State.startResults
    rw [if_pos armed', if_pos armed]
    have same := congrArg RunRecord.results h.run
    exact same
  rw [results] at entered
  exact ⟨entered, state, step, current, time.trans (congrArg some h.clock), rest⟩

end StandsAs

/-- R123: what a run that has begun is told by. -/
theorem RunBegins.alike {i : Nat} {v : Vertical} {s t u : State} (h : RunBegins i v s t) (gauging : u.gauging = t.gauging)
    (verticals : u.verticals = t.verticals) (cable : u.cable = t.cable) (stage : u.stage = t.stage)
    (raised : t.attends .runStarted = true → u.attends .runStarted = true) : RunBegins i v s u := by
  obtain ⟨entered, state, step, current, time, first, trigger, wait, started, rest⟩ := h
  unfold RunBegins
  rw [gauging, verticals, cable, stage]
  exact ⟨entered, state, step, current, time, first, trigger, wait, raised started, rest⟩

/-! ### CableInhibit entering and leaving (R164, R165) -/

section
variable {s : State}

theorem formEffects_unmoved (h : (s.setWarning s.warning.form).inhibited = s.inhibited) :
    formEffects s = s.setWarning s.warning.form := by
  unfold formEffects
  dsimp only
  rw [h, if_neg (fun ⟨off, on⟩ => by rw [off] at on; cases on), if_neg (fun ⟨on, off⟩ => by rw [off] at on; cases on)]

theorem formEffects_leaves (before : s.inhibited = true) (after : (s.setWarning s.warning.form).inhibited = false) :
    formEffects s = startIfReady (s.setWarning s.warning.form) := by
  unfold formEffects
  dsimp only
  rw [if_neg (fun ⟨off, _⟩ => by rw [off] at before; cases before), if_pos ⟨before, after⟩]

theorem formEffects_enters (before : s.inhibited = false) (after : (s.setWarning s.warning.form).inhibited = true) :
    formEffects s = inhibitEnters (s.setWarning s.warning.form) := by
  unfold formEffects
  dsimp only
  rw [if_pos ⟨before, after⟩]

/-- R111, R134: an Armed run does not take up the inhibit. -/
theorem inhibitEnters_armed (armed : s.run.state = .armed) : (inhibitEnters s).gauging = s.gauging := by
  have gauging : (inhibitCable s).state.gauging = s.gauging := (inhibitCable_step s).gauging
  have armed' : (inhibitCable s).state.run.state = .armed := (congrArg (fun g : GaugingUnit => g.run.state) gauging).trans armed
  unfold inhibitEnters
  rw [deliver_armed armed']
  unfold inhibitRun
  rw [armed']
  exact gauging

/-- R148: the rules evaluated and the reasons raised, before the effects are formed. -/
def State.judged (s : State) : State :=
  ((s.setRules (evaluateRules s)).raiseIf (s.warning.rules.anyChange (evaluateRules s) tripped) .ruleTripped).raiseIf
    (s.warning.rules.anyChange (evaluateRules s) cleared) .ruleCleared

theorem evaluate_eq (s : State) : evaluate s = formEffects s.judged := rfl

theorem judged_warning (s : State) : s.judged.warning = { s.warning with rules := evaluateRules s } := by
  unfold State.judged
  rw [raiseIf_warning, raiseIf_warning]
  rfl

theorem judged_inhibited (s : State) : s.judged.inhibited = s.inhibited := by
  unfold State.inhibited
  rw [judged_warning]

theorem judged_frame (s : State) : CableFrame (s.setRules (evaluateRules s)) s.judged :=
  (raiseIf_frame _ _ .ruleTripped nofun).trans (raiseIf_frame _ _ .ruleCleared nofun)

theorem attends_setWarning {s : State} {r : Reason} (h : s.attends r = true) (w : WarningUnit) :
    (s.setWarning w).attends r = true := h

theorem judged_stage (s : State) : s.judged.stage = s.stage := by
  have kept : ∀ rules, (s.setRules rules).stage = s.stage := fun _ => rfl
  exact (judged_frame s).stage.trans (kept _)

theorem judged_raised {s : State} {r : Reason} (h : s.attends r = true) : s.judged.attends r = true := by
  have kept : ∀ rules, (s.setRules rules).attends r = true := fun _ => h
  exact (judged_frame s).raised r (kept _)

theorem StandsAs.judged {t : State} {r : RunRecord} (h : StandsAs s r t) : StandsAs s r t.judged := by
  have ruled : ∀ rules, StandsAs s r (t.setRules rules) := fun _ => h.alike rfl rfl rfl rfl rfl
  unfold State.judged
  exact ((ruled _).raiseIf _ _).raiseIf _ _

/-- Whether the effects formed from evaluated rules hold CableInhibit. -/
def State.willInhibit (s : State) : Bool := (s.judged.setWarning s.judged.warning.form).inhibited

end

/-! ### An evaluation beside an Armed run -/

section
variable {s t : State} {r : RunRecord}

theorem StandsAs.evaluate_keeps (_ : StandsAs s r t) (h : t.willInhibit = t.inhibited) :
    evaluate t = t.judged.setWarning t.judged.warning.form :=
  formEffects_unmoved (h.trans (judged_inhibited t).symm)

theorem StandsAs.evaluate_leaves (_ : StandsAs s r t) (before : t.inhibited = true) (after : t.willInhibit = false) :
    evaluate t = startIfReady (t.judged.setWarning t.judged.warning.form) :=
  formEffects_leaves ((judged_inhibited t).trans before) after

/-- A run that is Armed, and does not start, is left by an evaluation as it stands. -/
theorem StandsAs.evaluate_run (h : StandsAs s r t) (armed : r.state = .armed) (unmet : r.triggerMet ≠ some true) :
    (evaluate t).gauging = t.gauging := by
  have formed := h.judged.setWarning t.judged.warning.form
  have gauging : (t.judged.setWarning t.judged.warning.form).gauging = t.gauging := formed.gauging.trans h.gauging.symm
  cases before : t.inhibited <;> cases after : t.willInhibit
  · rw [h.evaluate_keeps (after.trans before.symm)]
    exact gauging
  · rw [evaluate_eq, formEffects_enters ((judged_inhibited t).trans before) after,
      inhibitEnters_armed ((congrArg RunRecord.state formed.run).trans armed)]
    exact gauging
  · rw [h.evaluate_leaves before after, formed.waits (Or.inl unmet)]
    exact gauging
  · rw [h.evaluate_keeps (after.trans before.symm)]
    exact gauging

end

/-! ### The two orders of a publication (R121, R148, LOG 9) -/

/-- R121: the run once a publication has been compared with its trigger. -/
def State.marked (s : State) : State :=
  if s.triggerReached then s.setRun { s.run with triggerMet := some true } else s

theorem gaugingTakesPublication_eq (s : State) : gaugingTakesPublication s = startIfReady s.marked := rfl

theorem triggerReached_iff {s : State} {trigger : Int} {wait : Nat} (armed : s.run.state = .armed)
    (condition : s.run.startCondition = some (.atStage trigger wait)) :
    s.triggerReached = true ↔ (s.stage.record.quality = .good ∨ s.stage.record.quality = .failover) ∧
      ∃ h, s.stage.record.stage = some h ∧ trigger ≤ h := by
  unfold State.triggerReached
  rw [armed, condition]
  cases s.stage.record.quality <;> cases s.stage.record.stage <;> simp

theorem triggerReached_running {s : State} (running : s.run.state = .running) : s.triggerReached = false := by
  unfold State.triggerReached
  rw [running]

/-- What O50 says of the run at a publication, in the words of the model: from s, with the trigger met or not and with
CableInhibit in the effects that the publication forms or not. -/
def ArmedAtPublication (i : Nat) (v : Vertical) (met : Prop) (inhibited : Bool) (s t : State) : Prop :=
  (met → inhibited = false → RunBegins i v s t) ∧
  (met → s.inhibited = true → inhibited = true →
    t.gauging.run = { s.gauging.run with triggerMet := some true } ∧ t.cable = s.cable) ∧
  (¬ met → t.gauging.run = s.gauging.run)

section
variable {i : Nat} {v : Vertical} {s x : State} {trigger : Int} {wait : Nat}

/-- R121: the trigger of a run is met, by an earlier publication or by the record that stands. -/
def State.meetsTrigger (s : State) : Prop := s.run.triggerMet = some true ∨ s.triggerReached = true

theorem marked_met {t : State} (h : StandsAs s s.gauging.run t) (met : t.meetsTrigger) :
    StandsAs s { s.gauging.run with triggerMet := some true } t.marked := by
  unfold State.marked
  split
  · rw [h.run]
    exact h.setRun _
  · next unmet =>
    have already := met.resolve_right unmet
    rw [h.run] at already
    have same : ({ s.gauging.run with triggerMet := some true } : RunRecord) = s.gauging.run := by rw [← already]
    rw [same]
    exact h

theorem marked_unmet {t : State} (unmet : ¬ t.meetsTrigger) : t.marked = t :=
  if_neg fun reached => unmet (Or.inr reached)

theorem marked_inhibited (s : State) : s.marked.inhibited = s.inhibited := by
  unfold State.marked
  split <;> rfl

/-- R148: what the effects become depends on the rules and the record alone. -/
theorem CableFrame.willInhibit {s t : State} (f : CableFrame s t) : t.willInhibit = s.willInhibit := by
  have formed : t.judged.warning = s.judged.warning := by
    rw [judged_warning, judged_warning, evaluateRules_frame f, f.warning]
  unfold State.willInhibit
  refine inhibited_congr ?_
  rw [setWarning_warning, setWarning_warning, formed]

theorem CableFrame.inhibited {s t : State} (f : CableFrame s t) : t.inhibited = s.inhibited :=
  inhibited_congr f.warning

theorem marked_frame (s : State) : CableFrame s s.marked := by
  unfold State.marked
  split
  · exact CableFrame.of_run s _
  · exact CableFrame.refl s

/-- The readers of a publication leave the stage record. -/
theorem evaluate_stage (s : State) : (evaluate s).stage = s.stage := by
  obtain ⟨w, n, f⟩ := evaluate_spread s
  exact f.stage

/-- R123: an evaluation that neither enters nor leaves the inhibit lets a run that has begun go on. -/
theorem evaluate_runBegins {t : State} (h : RunBegins i v s t) (same : t.willInhibit = t.inhibited) :
    RunBegins i v s (evaluate t) := by
  have formed : evaluate t = t.judged.setWarning t.judged.warning.form :=
    formEffects_unmoved (same.trans (judged_inhibited t).symm)
  have judged : StandsAs t t.gauging.run t.judged := (StandsAs.refl t).judged
  rw [formed]
  exact h.alike ((setWarning_gauging _ _).trans judged.gauging) ((setWarning_verticals _ _).trans judged.verticals)
    ((setWarning_cable _ _).trans judged.cable) ((setWarning_stage _ _).trans (judged_stage t))
    fun raised => attends_setWarning (judged_raised raised) _

variable (armed : s.gauging.run.state = .armed) (departs : CanDepart s v) (first : FirstMeasured s.verticals i v)
  (enough : 2 ≤ (s.verticals.filter fun v => v.skip == .measure).length) (stands : StandsAs s s.gauging.run x)
include armed departs first enough stands

/-- R121: the Gauging Unit first, the Warning Unit then. -/
theorem armedAtPublication_gaugingFirst (same : x.inhibited = s.inhibited) :
    ArmedAtPublication i v x.meetsTrigger x.willInhibit s (evaluate (gaugingTakesPublication x)) := by
  rw [gaugingTakesPublication_eq]
  have willInhibit : x.marked.willInhibit = x.willInhibit := (marked_frame x).willInhibit
  refine ⟨fun met free => ?_, fun met before after => ?_, fun unmet => ?_⟩
  · have marked := marked_met stands met
    cases before : s.inhibited
    · obtain ⟨starts, begins⟩ := marked.starts armed departs first enough
        ((marked_inhibited x).trans (same.trans before))
      have frame : CableFrame x (startRunning x.marked) := (marked_frame x).trans (startRunning_frame _)
      rw [starts]
      refine evaluate_runBegins begins ?_
      rw [frame.willInhibit, frame.inhibited, free, same, before]
    · have held : x.marked.inhibited = true := (marked_inhibited x).trans (same.trans before)
      rw [marked.waits (Or.inr held), marked.evaluate_leaves held (willInhibit.trans free)]
      obtain ⟨starts, begins⟩ := (marked.judged.setWarning x.marked.judged.warning.form).starts armed departs first enough
        (willInhibit.trans free)
      rw [starts]
      exact begins
  · have marked := marked_met stands met
    have held : x.marked.inhibited = true := (marked_inhibited x).trans (same.trans before)
    rw [marked.waits (Or.inr held), marked.evaluate_keeps ((willInhibit.trans after).trans held.symm)]
    have formed := marked.judged.setWarning x.marked.judged.warning.form
    exact ⟨formed.run, formed.cable⟩
  · have notMet : s.gauging.run.triggerMet ≠ some true := fun met => unmet (Or.inl (by rw [stands.run]; exact met))
    rw [marked_unmet unmet, stands.waits (Or.inl notMet), stands.evaluate_run armed notMet]
    exact stands.run

/-- R121: the Warning Unit first, the Gauging Unit then. -/
theorem armedAtPublication_warningFirst (same : x.inhibited = s.inhibited) :
    ArmedAtPublication i v x.meetsTrigger x.willInhibit s (gaugingTakesPublication (evaluate x)) := by
  rw [gaugingTakesPublication_eq]
  have formed := stands.judged.setWarning x.judged.warning.form
  have meets : ∀ t : State, t.stage = x.stage → t.run = x.run → (t.meetsTrigger ↔ x.meetsTrigger) := fun t stage run => by
    unfold State.meetsTrigger State.triggerReached
    rw [stage, run]
  have formedMeets := meets _ ((setWarning_stage _ _).trans (judged_stage x)) (formed.run.trans stands.run.symm)
  refine ⟨fun met free => ?_, fun met before after => ?_, fun unmet => ?_⟩
  · have marked := marked_met formed (formedMeets.mpr met)
    have starting := marked.starts armed departs first enough ((marked_inhibited _).trans free)
    cases before : s.inhibited
    · rw [stands.evaluate_keeps (free.trans (same.trans before).symm), starting.1]
      exact starting.2
    · rw [stands.evaluate_leaves (same.trans before) free]
      by_cases already : s.gauging.run.triggerMet = some true
      · have run : ({ s.gauging.run with triggerMet := some true } : RunRecord) = s.gauging.run := by rw [← already]
        obtain ⟨starts, begins⟩ := StandsAs.starts (run ▸ formed) armed departs first enough free
        have running : (startRunning (x.judged.setWarning x.judged.warning.form)).run.state = .running := begins.2.1
        rw [starts, State.marked, triggerReached_running running, if_neg Bool.false_ne_true,
          startIfReady_waits fun ready => by cases ready.1.symm.trans running]
        exact begins
      · rw [formed.waits (Or.inl already), starting.1]
        exact starting.2
  · have marked := marked_met formed (formedMeets.mpr met)
    rw [stands.evaluate_keeps (after.trans (same.trans before).symm), marked.waits (Or.inr ((marked_inhibited _).trans after))]
    exact ⟨marked.run, marked.cable⟩
  · have notMet : s.gauging.run.triggerMet ≠ some true := fun met => unmet (Or.inl (by rw [stands.run]; exact met))
    have gauging := stands.evaluate_run armed notMet
    have run : (evaluate x).run = s.gauging.run := (congrArg GaugingUnit.run gauging).trans stands.run
    have unmet' : ¬ (evaluate x).meetsTrigger := fun met =>
      unmet ((meets _ (evaluate_stage x) (congrArg GaugingUnit.run gauging)).mp met)
    rw [marked_unmet unmet', startIfReady_waits fun ready => notMet
      ((congrArg RunRecord.triggerMet run).symm.trans ready.2.1)]
    exact run

end

/-! ### The publication of an interval (R20, R121) -/

theorem settle_verticals (e : StageInterval) (s : State) : (settle e s).verticals = s.verticals := by
  have setVotes : ∀ u : State, ∀ v, (u.setVotes v).verticals = u.verticals := fun u v => by
    unfold State.setVotes
    rw [raiseIf_verticals]
    rfl
  have replaced : (replaceSetup s).verticals = s.verticals := by
    unfold replaceSetup
    split
    · rfl
    · exact setVotes _ _
  unfold settle publish takeVote
  dsimp only
  rw [raiseIf_verticals]
  exact (setVotes _ _).trans replaced

theorem settled_standsAs (s : State) : StandsAs s s.gauging.run s.settled := by
  have frame := settled_frame s
  obtain ⟨gauging, cable⟩ := settle_gauging s.stage.interval (s.setStage { s.stage with interval := nextInterval s })
  exact ⟨frame.clock.trans (setStage_clock _ _), frame.settings.trans (setStage_settings _ _),
    (settle_verticals _ _).trans (setStage_verticals _ _), cable.trans (setStage_cable _ _),
    gauging.trans (setStage_gauging _ _)⟩

/-- The state that the readers of a publication take, the free value read. -/
def State.published (s : State) : State := s.settled.setFreeReads (s.settled.freeReads + 1)

theorem published_standsAs (s : State) : StandsAs s s.gauging.run s.published := (settled_standsAs s).setFreeReads _

theorem published_warning (s : State) : s.published.warning = s.warning :=
  (setFreeReads_warning _ _).trans ((settled_frame s).warning.trans (setStage_warning _ _))

theorem stageIntervalExpiry_cases {P : State → Prop} (s : State)
    (gaugingFirst : P (evaluate (gaugingTakesPublication s.published)))
    (warningFirst : P (gaugingTakesPublication (evaluate s.published))) : P (stageIntervalExpiry s) := by
  rw [stageIntervalExpiry_eq]
  unfold consumePublication
  refine chooseOutcome_of_all _ _ _ gaugingFirst fun o ho => ?_
  rw [List.mem_singleton.mp ho]
  exact warningFirst

theorem consumePublication_inhibited (s : State) :
    (consumePublication s).inhibited = (s.setFreeReads (s.freeReads + 1)).willInhibit := by
  unfold State.willInhibit State.inhibited
  rw [consumePublication_warning, setWarning_warning, judged_warning]
  rfl

/-- R148: the effects after the publication are those that its evaluation forms. -/
theorem stageIntervalExpiry_inhibited (s : State) : (stageIntervalExpiry s).inhibited = s.published.willInhibit := by
  unfold State.published
  rw [stageIntervalExpiry_eq]
  exact consumePublication_inhibited s.settled

theorem published_stage (s : State) : s.published.stage = (stageIntervalExpiry s).stage := by
  rw [stageIntervalExpiry_stage]
  exact setFreeReads_stage _ _

/-! ### A rule taken out beside an Armed run (R121, R145, R146) -/

theorem takeRuleOut_armed {s : State} {i : Nat} {v : Vertical} (k : Nat) (r : Rule) (after : Option Rule)
    (armed : s.gauging.run.state = .armed) (met : s.gauging.run.triggerMet = some true) (departs : CanDepart s v)
    (first : FirstMeasured s.verticals i v) (enough : 2 ≤ (s.verticals.filter fun v => v.skip == .measure).length)
    (inhibited : s.inhibited = true) :
    ((takeRuleOut k r after s).inhibited = false → RunBegins i v s (takeRuleOut k r after s)) ∧
      ((takeRuleOut k r after s).inhibited = true →
        (takeRuleOut k r after s).gauging = s.gauging ∧ (takeRuleOut k r after s).cable = s.cable) := by
  have stands : StandsAs s s.gauging.run ((s.setRules (s.warning.rules.put k after)).raiseIf r.contributing .ruleCleared) := by
    have ruled : ∀ rules, StandsAs s s.gauging.run (s.setRules rules) := fun _ => (StandsAs.refl s).alike rfl rfl rfl rfl rfl
    exact (ruled _).raiseIf _ _
  have before : ((s.setRules (s.warning.rules.put k after)).raiseIf r.contributing .ruleCleared).inhibited = true := by
    unfold State.inhibited
    rw [raiseIf_warning]
    exact inhibited
  unfold takeRuleOut
  generalize (s.setRules (s.warning.rules.put k after)).raiseIf r.contributing .ruleCleared = y at stands before
  have left : (formEffects y).inhibited = (y.setWarning y.warning.form).inhibited := by
    unfold State.inhibited
    rw [formEffects_warning]
    rfl
  have formed := stands.setWarning y.warning.form
  rw [left]
  refine ⟨fun free => ?_, fun held => ?_⟩
  · have run : ({ s.gauging.run with triggerMet := some true } : RunRecord) = s.gauging.run := by rw [← met]
    obtain ⟨starts, begins⟩ := StandsAs.starts (run ▸ formed) armed departs first enough free
    rw [formEffects_leaves before free, starts]
    exact begins
  · rw [formEffects_unmoved (held.trans before.symm)]
    exact ⟨formed.gauging, formed.cable⟩

/-! ### A section edit beside an Armed run (R46, R121) -/

theorem sectionEdit_begins {s : State} {vs : List Vertical} {i : Nat} {v : Vertical}
    (ready : RunReady { s with verticals := vs }) (first : FirstMeasured vs i v) (departs : CanDepart s v) :
    RunBegins i v s (startIfReady (s.setVerticals vs)) ∧ (startIfReady (s.setVerticals vs)).verticals = vs := by
  have starts : startIfReady (s.setVerticals vs) = startRunning (s.setVerticals vs) := startIfReady_ready ready
  obtain ⟨begins, form⟩ := startRunning_departs (s := s.setVerticals vs) ready.1 first departs ready.2.2.1
  rw [starts]
  exact ⟨begins, by rw [form]; rfl⟩

end Sys2Proof.Machine

open Sys2Proof Sys2Proof.Machine

/-- Settles O50: both orders of the readers of a publication, the effects formed again when a rule is taken out, and the
commit of a vertical. -/
theorem armedRunStartsWhenReady : Obligations.ArmedRunStartsWhenReady := by
  refine ⟨fun i v s running armed departs first enough => ?_,
    fun d b plan flag i v s running heard empty => ?edit⟩
  · intro run inhibit
    refine ⟨fun trigger wait condition => ?publication, fun k r c heard empty met inhibited present active which => ?rule⟩
    case publication =>
      refine ⟨stageIntervalExpiry s, exec_stageIntervalExpiry running, ?_⟩
      intro met
      have stands := published_standsAs s
      have same : s.published.inhibited = s.inhibited := inhibited_congr (published_warning s)
      have claims : ArmedAtPublication i v s.published.meetsTrigger s.published.willInhibit s (stageIntervalExpiry s) :=
        stageIntervalExpiry_cases s (armedAtPublication_gaugingFirst armed departs first enough stands same)
          (armedAtPublication_warningFirst armed departs first enough stands same)
      have met_iff : met ↔ s.published.meetsTrigger := by
        have reached := triggerReached_iff (s := s.published) (trigger := trigger) (wait := wait)
          (by rw [stands.run]; exact armed) (by rw [stands.run]; exact condition)
        unfold State.meetsTrigger
        rw [reached, stands.run, published_stage]
      rw [← stageIntervalExpiry_inhibited] at claims
      obtain ⟨begins, waits, unmet⟩ := claims
      exact ⟨fun h free => begins (met_iff.mp h) ((inhibited_eq_false _).mpr free),
        fun h before after => waits (met_iff.mp h) ((inhibited_iff _).mpr before) ((inhibited_iff _).mpr after),
        fun h => unmet fun h' => h (met_iff.mpr h')⟩
    case rule =>
      have l : Listens s := ⟨running, heard, empty⟩
      have takenOut := fun after => takeRuleOut_armed (i := i) (v := v) k.val r after armed met departs first enough
        ((inhibited_iff s).mpr inhibited)
      rcases which with rfl | rfl
      · refine ⟨_, l.exec_done .disarmRule (by simp) (disarmRule_active present active), fun free => ?_, fun held => ?_⟩
        · exact ((takenOut _).1 ((inhibited_eq_false _).mpr free)).answered _
        · exact (takenOut _).2 ((inhibited_iff _).mpr held)
      · refine ⟨_, l.exec_done .retireRule (by simp) (retireRule_present present), fun free => ?_, fun held => ?_⟩
        · exact ((takenOut _).1 ((inhibited_eq_false _).mpr free)).answered _
        · exact (takenOut _).2 ((inhibited_iff _).mpr held)
  case edit =>
    intro c added edited table fields low high bedLow bedHigh fits above below ready first departs
    have l : Listens s := ⟨running, heard, empty⟩
    have open_ : c.table ≠ .active := by rw [table]; exact nofun
    have free : ¬ s.sectionLocked = true := fun locked => by
      rcases (locks_iff _).mp locked with h | h <;> cases h.symm.trans ready.1
    have committed := (takeValue_vertical (w := BitVec.ofInt 32 flag.code) table fields).trans (congrArg _
      (commitVertical_ok (k := c.index) free ⟨low, high⟩ ⟨bedLow, bedHigh⟩ (plan_code plan) (skip_code flag) fits
        ((betweenNeighbours_iff _ _ _).mpr ⟨above, below⟩)))
    obtain ⟨begins, verticals⟩ := sectionEdit_begins ready first departs
    have frame := startIfReady_frame (s.setVerticals edited)
    have cursor : (startIfReady (s.setVerticals edited)).port.cursor = c := frame.cursor
    have advanced : ((startIfReady (s.setVerticals edited)).advanceCursor 1).port.cursor =
        { c with index := (c.index + 1) % 32, fields := [] } := by
      have onward : c.table.onward c.index 1 = (c.index + 1) % 32 := by rw [table]; rfl
      unfold State.advanceCursor
      rw [cursor]
      exact congrArg (fun n => { c with index := n, fields := [] }) onward
    have taken := l.exec_value_ok open_ committed
    refine ⟨_, taken, verticals, ?_, ?_, ?_⟩
    · exact congrArg (fun c : Cursor => some (Answer.mk .done 0x21 (be1 c.index ++ be1 c.fields.length ++ [1]))) advanced
    · exact advanced
    · exact (begins.alike (u := (startIfReady (s.setVerticals edited)).advanceCursor 1) rfl rfl rfl rfl id).answered _

end

section
/-! CableInhibit entering at a publication (R106, R111, R134, R165): the drives it stops, the run it ends, and homing. -/

namespace Sys2Proof.Machine

/-! ### The drives stopped (R111) -/

/-- R111: no drive runs Outward or Down. -/
def HeldBack (c : Cableway) : Prop :=
  ¬ (c.traverse.on = true ∧ c.traverse.way = .outward) ∧ ¬ (c.hoist.on = true ∧ c.hoist.way = .down)

theorem heldBack_heldBack (c : Cableway) : HeldBack c.heldBack := by
  unfold Cableway.heldBack
  refine ⟨fun ⟨on, way⟩ => ?_, fun ⟨on, way⟩ => ?_⟩
  · dsimp only at on way
    split at on
    · cases on
    · next still =>
      rw [if_neg still] at way
      exact still (Or.inl ⟨way, on⟩)
  · dsimp only at on way
    split at on
    · cases on
    · next still =>
      rw [if_neg still] at way
      exact still (Or.inl ⟨way, on⟩)

/-- R93: what turns no drive on keeps the drives back. -/
theorem HeldBack.kept {s t : State} (h : HeldBack s.cable) (f : CableFrame s t) : HeldBack t.cable := by
  obtain ⟨traverse, hoist⟩ := h
  exact ⟨fun ⟨on, way⟩ => traverse ⟨f.traverse.2 on, f.traverse.1.symm.trans way⟩,
    fun ⟨on, way⟩ => hoist ⟨f.hoist.2 on, f.hoist.1.symm.trans way⟩⟩

theorem inhibitCable_heldBack (s : State) : HeldBack (inhibitCable s).state.cable := by
  have back : HeldBack (s.setCable s.cable.heldBack).cable := heldBack_heldBack s.cable
  have rested : HeldBack ((s.setCable s.cable.heldBack).rest .holding).cable :=
    ⟨(fun ⟨on, _⟩ => nomatch on), (fun ⟨on, _⟩ => nomatch on)⟩
  unfold inhibitCable
  dsimp only
  split
  · split
    · exact back
    · exact rested
  · exact rested
  · exact back.kept (beginPhase_frame _ _ _)
  · exact back

theorem inhibitEnters_heldBack (s : State) : HeldBack (inhibitEnters s).cable :=
  ((inhibitCable_heldBack s).kept (deliver_frame _)).kept (inhibitRun_frame _)

/-! ### The run ended (R134) -/

theorem inhibitRun_running {s : State} (running : s.run.state = .running) :
    inhibitRun s = deliver (abortRun .inhibited s) := by
  unfold inhibitRun
  rw [running]

theorem inhibitRun_other {s : State} (h : s.run.state ≠ .running) : inhibitRun s = s := by
  unfold inhibitRun
  split
  · next running => exact absurd running h
  · rfl

theorem takeResult_inhibited {s : State} (running : s.run.state = .running) :
    takeResult .inhibited s = abortRun .inhibited s := by
  unfold takeResult
  rw [running]

section
variable {s : State}

theorem inhibitCable_goes (notOutward : ∀ target, s.cable.activity ≠ .moving (.traverseTo target .outward))
    (notLowering : ∀ target stop start wet, s.cable.activity ≠ .moving (.lowerTo target stop start wet))
    (notReleasing : s.cable.activity ≠ .homing .release) : inhibitCable s = going (s.setCable s.cable.heldBack) := by
  unfold inhibitCable
  dsimp only
  split
  · next h => exact absurd h (notOutward _)
  · next h => exact absurd h (notLowering _ _ _ _)
  · next h => exact absurd h notReleasing
  · rfl

theorem inhibitCable_ends (h : (∃ target, s.cable.activity = .moving (.traverseTo target .outward) ∧ s.cable.recovering = false) ∨
      ∃ target stop start wet, s.cable.activity = .moving (.lowerTo target stop start wet)) :
    inhibitCable s = endMovement (s.setCable s.cable.heldBack) .holding .inhibited := by
  unfold inhibitCable
  rcases h with ⟨target, moving, straight⟩ | ⟨target, stop, start, wet, moving⟩
  · rw [moving]
    exact if_neg (by rw [straight]; decide)
  · rw [moving]

theorem inhibitCable_releases (h : s.cable.activity = .homing .release) :
    inhibitCable s = going (beginPhase .find .inward (s.setCable s.cable.heldBack)) := by
  unfold inhibitCable
  rw [h]

/-- R134: what the controller does not end is ended by the run's abort. -/
theorem inhibitEnters_aborts (running : s.run.state = .running)
    (goes : inhibitCable s = going (s.setCable s.cable.heldBack)) :
    inhibitEnters s = deliver (abortRun .inhibited (s.setCable s.cable.heldBack)) := by
  unfold inhibitEnters
  rw [goes, deliver_going]
  exact inhibitRun_running running

/-- R134: whatever the inhibit stops, the carriage is Holding with the same contacts, and the return is asked for. -/
theorem inhibitEnters_asks (running : s.run.state = .running) (stoppable : s.cable.Stoppable)
    (straight : (∃ target way, s.cable.activity = .moving (.traverseTo target way)) → s.cable.recovering = false) :
    ∃ c : Cableway, c.state = .holding ∧ c.activity = .idle ∧ c.contacts = s.cable.contacts ∧
      ∀ {k : Nat} {t : State}, k ≤ 6 → t.run.state ≠ .running →
        Follows k (ask .returnRaise .raiseToTop ((s.abortedRun .inhibited).setCable c)) t → inhibitEnters s = t := by
  have aborts : inhibitCable s = going (s.setCable s.cable.heldBack) → ∃ c : Cableway,
      c.state = .holding ∧ c.activity = .idle ∧ c.contacts = s.cable.contacts ∧
      ∀ {k : Nat} {t : State}, k ≤ 6 → t.run.state ≠ .running →
        Follows k (ask .returnRaise .raiseToTop ((s.abortedRun .inhibited).setCable c)) t → inhibitEnters s = t := fun goes => by
    obtain ⟨c, holding, idle, contacts, asks⟩ :=
      abortRun_asks (s := s.setCable s.cable.heldBack) (reason := .inhibited) stoppable
    refine ⟨c, holding, idle, contacts, fun few _ follows => ?_⟩
    rw [inhibitEnters_aborts running goes]
    exact (asks follows).deliver_eq (by omega)
  have ends : inhibitCable s = endMovement (s.setCable s.cable.heldBack) .holding .inhibited → ∃ c : Cableway,
      c.state = .holding ∧ c.activity = .idle ∧ c.contacts = s.cable.contacts ∧
      ∀ {k : Nat} {t : State}, k ≤ 6 → t.run.state ≠ .running →
        Follows k (ask .returnRaise .raiseToTop ((s.abortedRun .inhibited).setCable c)) t → inhibitEnters s = t := fun ends => by
    refine ⟨((s.setCable s.cable.heldBack).rest .holding).cable, rfl, rfl, rfl, fun few ended follows => ?_⟩
    have taken : takeResult .inhibited ((s.setCable s.cable.heldBack).rest .holding) = _ :=
      (takeResult_inhibited (s := (s.setCable s.cable.heldBack).rest .holding) running).trans (abortRun_holding (s := (s.setCable s.cable.heldBack).rest .holding) rfl rfl)
    have delivered := (Follows.result taken follows).deliver_eq (by omega)
    unfold inhibitEnters
    rw [ends]
    exact (congrArg inhibitRun delivered).trans (inhibitRun_other ended)
  rcases stoppable with ⟨idle, -⟩ | ⟨target, way, moving⟩ | ⟨target, stop, start, wet, moving⟩
  · exact aborts (inhibitCable_goes (fun _ h => by cases h.symm.trans idle) (fun _ _ _ _ h => by cases h.symm.trans idle)
      fun h => by cases h.symm.trans idle)
  · cases way with
    | outward => exact ends (inhibitCable_ends (Or.inl ⟨target, moving, straight ⟨target, .outward, moving⟩⟩))
    | inward =>
      exact aborts (inhibitCable_goes (fun _ h => by cases h.symm.trans moving)
        (fun _ _ _ _ h => by cases h.symm.trans moving) fun h => by cases h.symm.trans moving)
  · exact ends (inhibitCable_ends (Or.inr ⟨target, stop, start, wet, moving⟩))

/-- R134: a raise runs to its end on the return. -/
theorem inhibitEnters_raising (running : s.run.state = .running)
    (raising : s.cable.activity = .moving .raiseToTop ∨ ∃ target, s.cable.activity = .moving (.raiseTo target)) :
    inhibitEnters s = (s.setCable s.cable.heldBack).abortedRun .inhibited := by
  have goes : inhibitCable s = going (s.setCable s.cable.heldBack) := by
    rcases raising with h | ⟨target, h⟩ <;>
      exact inhibitCable_goes (fun _ e => by cases e.symm.trans h) (fun _ _ _ _ e => by cases e.symm.trans h)
        fun e => by cases e.symm.trans h
  rw [inhibitEnters_aborts running goes, abortRun_raising (s := s.setCable s.cable.heldBack) raising, deliver_going]

end

/-! ### Homing (R105, R106) -/

section
variable {s : State} {p : HomingPhase}

/-- R99: no movement is taken while the carriage homes. -/
theorem takeMovement_homing (homing : s.cable.activity = .homing p) (m : MoveRequest) :
    takeMovement m s = { state := s, result := some .refused } := if_pos (by rw [homing]; exact nofun)

theorem deliver_refused (s : State) : deliver { state := s, result := some .refused } = s := by
  refine deliver_taken ?_
  unfold takeResult
  split <;> first
    | rfl
    | contradiction

theorem ask_homing (homing : s.cable.activity = .homing p) (x : Step) (m : MoveRequest) :
    (deliver (ask x m s)).cable = s.cable := by
  have refused : ask x m s = { state := s.setStep x, result := some .refused } := takeMovement_homing (s := s.setStep x) homing m
  rw [refused, deliver_refused]
  rfl

theorem abortRun_homing (homing : s.cable.activity = .homing p) (reason : EndReason) :
    (deliver (abortRun reason s)).cable = s.cable := by
  unfold abortRun
  rw [homing]
  dsimp only
  split
  · next h => cases h
  · next h => cases h
  · next h => cases h
  · rw [deliver_going]
    unfold finishReturn
    split <;> rfl
  · exact ask_homing (s := s.abortedRun reason) homing _ _

theorem inhibitRun_homing (homing : s.cable.activity = .homing p) : (inhibitRun s).cable = s.cable := by
  unfold inhibitRun
  split
  · exact abortRun_homing homing _
  · rfl

/-- R123: a run that starts while the carriage homes moves nothing. -/
theorem startIfReady_homing (homing : s.cable.activity = .homing p) : (startIfReady s).cable = s.cable := by
  unfold startIfReady
  split
  · unfold startRunning
    dsimp only
    split
    · rfl
    · next i rest _ =>
      generalize started : ((s.setGauging _).raise .runStarted : State) = u
      have entered : (enterVertical i u).cable = s.cable := by rw [enterVertical_cable, ← started]; rfl
      have homing' : (enterVertical i u).cable.activity = .homing p := (congrArg Cableway.activity entered).trans homing
      split
      · exact (abortRun_homing homing' _).trans entered
      · unfold traverseToVertical
        split
        · exact (ask_homing homing' _ _).trans entered
        · exact entered
  · rfl

/-- R106: homing leaves the release of Home for the search. -/
theorem inhibitEnters_releasing (releasing : s.cable.activity = .homing .release) (top : s.asserted .top = true) :
    (inhibitEnters s).cable.activity = .homing .find ∧ (inhibitEnters s).cable.traverse.start = some .inward ∧
      (inhibitEnters s).cable.traverse.on = false := by
  have begun : beginPhase .find .inward (s.setCable s.cable.heldBack) =
      (s.setCable { s.cable.heldBack with activity := .homing .find }).setCable
        { ({ s.cable.heldBack with activity := .homing .find } : Cableway).runTraverse .inward with recovering := false } :=
    travel_carried _ (s := s.setCable { s.cable.heldBack with activity := .homing .find }) top
  have cable : (inhibitEnters s).cable = (beginPhase .find .inward (s.setCable s.cable.heldBack)).cable := by
    unfold inhibitEnters
    rw [inhibitCable_releases releasing, deliver_going]
    exact inhibitRun_homing (p := .find) (by rw [begun]; rfl)
  rw [cable, begun]
  exact ⟨rfl, rfl, rfl⟩

end

/-! ### The run that returns (R134) -/

/-- R134: the run as the inhibit ends it, with the stage of the publication. -/
def ReturnsInhibited (s : State) (h : Option Int) (step : Step) (t : State) : Prop :=
  t.gauging.dwell = none ∧ t.gauging.run = { s.gauging.run with
    state := .returning, step := some step, current := none,
    endReason := some (s.gauging.run.endReason.getD .inhibited), endTime := some s.clock, endStage := h }

/-- R134: what becomes of a Running run: the weight is raised, or the traverse turns for home, or the raise goes on. -/
def InhibitEndsRun (s : State) (h : Option Int) (t : State) : Prop :=
  (s.asserted .top = false →
    (s.cable.activity = .idle ∧ s.cable.state = .holding ∨
      ∃ target stop start wet, s.cable.activity = .moving (.lowerTo target stop start wet)) →
    ReturnsInhibited s h .returnRaise t ∧ t.cable.state = .raising ∧ t.cable.activity = .moving .raiseToTop ∧
    t.cable.hoist.start = some .up ∧ t.cable.hoist.on = false ∧ t.cable.traverse.on = false) ∧
  (s.asserted .top = true → s.asserted .home = false → s.cable.recovering = false →
    (∃ target way, s.cable.activity = .moving (.traverseTo target way)) →
    ReturnsInhibited s h .returnHome t ∧ t.cable.state = .traversing ∧ t.cable.activity = .moving .goHome ∧
    t.cable.traverse.start = some .inward ∧ t.cable.traverse.on = false ∧ t.cable.hoist.on = false) ∧
  ((s.cable.activity = .moving .raiseToTop ∨ ∃ target, s.cable.activity = .moving (.raiseTo target)) →
    ReturnsInhibited s h .returnRaise t ∧ t.cable.state = s.cable.state ∧ t.cable.activity = s.cable.activity)

section
variable {s : State}

/-- R134: a step of the return after the abort. -/
theorem returnsInhibited_step {t : State} {step : Step}
    (h : t.gauging = { (s.abortedRun .inhibited).gauging with
      run := { (s.abortedRun .inhibited).gauging.run with step := some step } }) :
    ReturnsInhibited s s.stage.record.stage step t := by
  rw [abortedRun_gauging] at h
  exact ⟨by rw [h], by rw [h]⟩

theorem inhibitEnters_endsRun (running : s.run.state = .running) :
    InhibitEndsRun s s.stage.record.stage (inhibitEnters s) := by
  refine ⟨fun released still => ?_, fun top away straight traversing => ?_, fun raising => ?_⟩
  · have stoppable : s.cable.Stoppable := still.elim Or.inl fun lowering => Or.inr (Or.inr lowering)
    have noTraverse : ¬ ∃ target way, s.cable.activity = .moving (.traverseTo target way) := fun ⟨target, way, moving⟩ => by
      rcases still with ⟨idle, -⟩ | ⟨target', stop, start, wet, lowering⟩
      · cases idle.symm.trans moving
      · cases lowering.symm.trans moving
    obtain ⟨c, holding, idle, contacts, enters⟩ :=
      inhibitEnters_asks running stoppable fun traversing => absurd traversing noTraverse
    have released' : ((s.abortedRun .inhibited).setCable c).asserted .top = false :=
      (asserted_congr (s := s) (t := (s.abortedRun .inhibited).setCable c) .top contacts rfl).trans released
    rw [enters (k := 0) (by omega) (t := ((s.abortedRun .inhibited).setCable c).raisingHome) nofun
      (.of_going 0 (askReturnRaise_raises holding idle released'))]
    exact ⟨returnsInhibited_step rfl, rfl, rfl, rfl, rfl, rfl⟩
  · obtain ⟨c, holding, idle, contacts, enters⟩ :=
      inhibitEnters_asks running (Or.inr (Or.inl traversing)) fun _ => straight
    have top' : ((s.abortedRun .inhibited).setCable c).asserted .top = true :=
      (asserted_congr (s := s) (t := (s.abortedRun .inhibited).setCable c) .top contacts rfl).trans top
    have away' : ((s.abortedRun .inhibited).setCable c).asserted .home = false :=
      (asserted_congr (s := s) (t := (s.abortedRun .inhibited).setCable c) .home contacts rfl).trans away
    rw [enters (k := 1) (by omega) (t := ((s.abortedRun .inhibited).setCable c).headingHome) nofun
      (return_heads rfl holding idle top' away')]
    exact ⟨returnsInhibited_step rfl, rfl, rfl, rfl, rfl, rfl⟩
  · rw [inhibitEnters_raising running raising]
    exact ⟨returnsInhibited_step (s := s) rfl, rfl, rfl⟩

/-- R121: a run that is not Armed takes no note of a publication. -/
theorem gaugingTakesPublication_other (h : s.run.state ≠ .armed) : gaugingTakesPublication s = s := by
  have unreached : s.triggerReached = false := by
    unfold State.triggerReached
    split
    · next armed _ _ _ => exact absurd armed h
    · next armed _ _ _ => exact absurd armed h
    · rfl
  have marked : s.marked = s := if_neg (by rw [unreached]; decide)
  rw [gaugingTakesPublication_eq, marked]
  exact startIfReady_waits fun ready => h ready.1

theorem ReturnsInhibited.takesNoPublication {h : Option Int} {step : Step} {t : State} (r : ReturnsInhibited s h step t) :
    gaugingTakesPublication t = t := by
  obtain ⟨-, run⟩ := r
  refine gaugingTakesPublication_other ?_
  rw [State.run, run]
  exact nofun

theorem InhibitEndsRun.takesPublication {h : Option Int} {t : State} (r : InhibitEndsRun s h t) :
    InhibitEndsRun s h (gaugingTakesPublication t) := by
  obtain ⟨raises, heads, goesOn⟩ := r
  refine ⟨fun released still => ?_, fun top away straight traversing => ?_, fun raising => ?_⟩
  · rw [(raises released still).1.takesNoPublication]
    exact raises released still
  · rw [(heads top away straight traversing).1.takesNoPublication]
    exact heads top away straight traversing
  · rw [(goesOn raising).1.takesNoPublication]
    exact goesOn raising

theorem StandsAs.inhibitEndsRun {h : Option Int} {z t : State} (stands : StandsAs s s.gauging.run z)
    (r : InhibitEndsRun z h t) : InhibitEndsRun s h t := by
  have contacts := congrArg Cableway.contacts stands.cable
  have returns : ∀ step, ReturnsInhibited z h step t → ReturnsInhibited s h step t := fun step ⟨dwell, run⟩ =>
    ⟨dwell, by rw [run, stands.clock, stands.gauging]⟩
  unfold InhibitEndsRun at r
  rw [stands.cable, asserted_congr .top contacts stands.settings, asserted_congr .home contacts stands.settings] at r
  obtain ⟨raises, heads, goesOn⟩ := r
  refine ⟨fun released still => ?_, fun top away straight traversing => ?_, fun raising => ?_⟩
  · exact (raises released still).imp_left (returns _)
  · exact (heads top away straight traversing).imp_left (returns _)
  · exact (goesOn raising).imp_left (returns _)

/-! ### The evaluation at which the inhibit enters (R148, R165) -/

/-- The state that takes the inhibit up: the rules evaluated and the effects formed. -/
def State.formed (s : State) : State := s.judged.setWarning s.judged.warning.form

theorem evaluate_enters (before : s.inhibited = false) (after : s.willInhibit = true) :
    evaluate s = inhibitEnters s.formed :=
  formEffects_enters ((judged_inhibited s).trans before) after

theorem evaluate_inhibited (s : State) : (evaluate s).inhibited = s.willInhibit := by
  have warning : (evaluate s).warning = s.formed.warning := by
    rw [evaluate_eq, formEffects_warning]
    rfl
  exact inhibited_congr warning

theorem formed_stage (s : State) : s.formed.stage = s.stage :=
  (setWarning_stage _ _).trans (judged_stage s)

theorem formed_cable (s : State) : s.formed.cable = s.cable :=
  ((StandsAs.refl s).judged.setWarning s.judged.warning.form).cable

theorem marked_cable (s : State) : s.marked.cable = s.cable := by
  unfold State.marked
  split <;> rfl

end

/-- What O55 says of a publication, in the words of the model. -/
def InhibitedAtPublication (s t : State) : Prop :=
  HeldBack t.cable ∧ (s.run.state = .running → InhibitEndsRun s s.stage.record.stage t) ∧
    (s.cable.activity = .homing .release → s.asserted .top = true →
      t.cable.activity = .homing .find ∧ t.cable.traverse.start = some .inward ∧ t.cable.traverse.on = false)

section
variable {s : State} (before : s.inhibited = false) (after : s.willInhibit = true)
include before after

theorem evaluate_formed_endsRun (running : s.run.state = .running) :
    InhibitEndsRun s s.stage.record.stage (evaluate s) := by
  have stands : StandsAs s s.gauging.run s.formed := (StandsAs.refl s).judged.setWarning _
  have ends := inhibitEnters_endsRun (s := s.formed) ((congrArg RunRecord.state stands.run).trans running)
  rw [formed_stage] at ends
  rw [evaluate_enters before after]
  exact stands.inhibitEndsRun ends

theorem evaluate_releasing (releasing : s.cable.activity = .homing .release) (top : s.asserted .top = true) :
    (evaluate s).cable.activity = .homing .find ∧ (evaluate s).cable.traverse.start = some .inward ∧
      (evaluate s).cable.traverse.on = false := by
  have stands : StandsAs s s.gauging.run s.formed := (StandsAs.refl s).judged.setWarning _
  rw [evaluate_enters before after]
  exact inhibitEnters_releasing ((congrArg Cableway.activity stands.cable).trans releasing)
    ((asserted_congr .top (congrArg Cableway.contacts stands.cable) stands.settings).trans top)

/-- R121: the Gauging Unit first, the Warning Unit then. -/
theorem inhibitedAtPublication_gaugingFirst : InhibitedAtPublication s (evaluate (gaugingTakesPublication s)) := by
  have frame := gaugingTakesPublication_frame s
  have before' := frame.inhibited.trans before
  have after' := frame.willInhibit.trans after
  refine ⟨?_, fun running => ?_, fun releasing top => ?_⟩
  · rw [evaluate_enters before' after']
    exact inhibitEnters_heldBack _
  · rw [gaugingTakesPublication_other fun armed => by cases armed.symm.trans running]
    exact evaluate_formed_endsRun before after running
  · have cable : (gaugingTakesPublication s).cable = s.cable :=
      (startIfReady_homing (p := .release) ((congrArg Cableway.activity (marked_cable s)).trans releasing)).trans
        (marked_cable s)
    exact evaluate_releasing before' after' ((congrArg Cableway.activity cable).trans releasing)
      ((asserted_congr .top (congrArg Cableway.contacts cable) frame.settings).trans top)

/-- R121: the Warning Unit first, the Gauging Unit then, which starts no run. -/
theorem inhibitedAtPublication_warningFirst : InhibitedAtPublication s (gaugingTakesPublication (evaluate s)) := by
  have held : (evaluate s).marked.inhibited = true :=
    (marked_inhibited _).trans ((evaluate_inhibited s).trans after)
  have waits : (gaugingTakesPublication (evaluate s)).cable = (evaluate s).cable := by
    rw [gaugingTakesPublication_eq, startIfReady_waits fun ready => (inhibited_iff _).mp held ready.2.2.1]
    exact marked_cable _
  refine ⟨?_, fun running => ?_, fun releasing top => ?_⟩
  · rw [waits, evaluate_enters before after]
    exact inhibitEnters_heldBack _
  · exact (evaluate_formed_endsRun before after running).takesPublication
  · rw [waits]
    exact evaluate_releasing before after releasing top

end

theorem StandsAs.inhibitedAtPublication {s z t : State} (stands : StandsAs s s.gauging.run z) (stage : z.stage = t.stage)
    (h : InhibitedAtPublication z t) :
    HeldBack t.cable ∧ (s.run.state = .running → InhibitEndsRun s t.stage.record.stage t) ∧
      (s.cable.activity = .homing .release → s.asserted .top = true →
        t.cable.activity = .homing .find ∧ t.cable.traverse.start = some .inward ∧ t.cable.traverse.on = false) := by
  obtain ⟨back, ends, releases⟩ := h
  refine ⟨back, fun running => ?_, fun releasing top => ?_⟩
  · rw [← stage]
    exact stands.inhibitEndsRun (ends ((congrArg RunRecord.state stands.run).trans running))
  · exact releases ((congrArg Cableway.activity stands.cable).trans releasing)
      ((asserted_congr .top (congrArg Cableway.contacts stands.cable) stands.settings).trans top)

end Sys2Proof.Machine

open Sys2Proof Sys2Proof.Machine

/-- Settles O55: in both orders of the readers the evaluation takes the inhibit up, and the Gauging Unit adds nothing to
it. -/
theorem inhibitEndsMovementAndRun : Obligations.InhibitEndsMovementAndRun := by
  intro s running uninhibited
  refine ⟨stageIntervalExpiry s, exec_stageIntervalExpiry running, fun inhibited => ?_⟩
  have before : s.published.inhibited = false :=
    (inhibited_congr (published_warning s)).trans ((inhibited_eq_false s).mpr uninhibited)
  have after : s.published.willInhibit = true :=
    (stageIntervalExpiry_inhibited s).symm.trans ((inhibited_iff _).mpr inhibited)
  have claims : InhibitedAtPublication s.published (stageIntervalExpiry s) :=
    stageIntervalExpiry_cases s (inhibitedAtPublication_gaugingFirst before after)
      (inhibitedAtPublication_warningFirst before after)
  obtain ⟨⟨outward, down⟩, ends, releases⟩ :=
    (published_standsAs s).inhibitedAtPublication (published_stage s) claims
  exact ⟨outward, down, ends, releases⟩

end

section
/-! ACCEPT GAUGING (R76, R77, R138, R139): its checks in their order, the band it retargets and the band it places. -/

namespace Sys2Proof.Machine

/-! ### The checks (R138) -/

section
variable {s : State} {w : Word}

theorem acceptGauging_badFlag (h : flagOf w = none) : acceptGauging (beWord w) s = badField s 0 := by
  unfold acceptGauging
  rw [readWords_beWord]
  dsimp only
  rw [h]

variable {force : Bool} (flag : flagOf w = some force)
include flag

theorem acceptGauging_notComplete (h : s.run.state ≠ .complete) : acceptGauging (beWord w) s = refused s .wrongState 0 := by
  unfold acceptGauging
  rw [readWords_beWord]
  dsimp only
  rw [flag]
  dsimp only
  split
  · next complete _ _ _ => exact absurd complete h
  · rfl

variable {x : Totals} {a b : Int} (complete : s.run.state = .complete) (totals : s.run.totals = some x)
  (start : s.run.startStage = some a) (finish : s.run.endStage = some b)
include complete totals start finish

theorem acceptGauging_unsteady (unsteady : s.run.flags.unsteady = true) (plain : force = false) :
    acceptGauging (beWord w) s = refused s .unsteady 0 := by
  unfold acceptGauging
  rw [readWords_beWord]
  dsimp only
  rw [flag, complete, totals, start, finish]
  exact if_pos ⟨unsteady, plain⟩

variable (steady : ¬ (s.run.flags.unsteady = true ∧ force = false))
include steady

theorem acceptGauging_adopting (h : s.rating.adoption.request.isSome = true) :
    acceptGauging (beWord w) s = refused s .adoptionPending 0 := by
  unfold acceptGauging
  rw [readWords_beWord]
  dsimp only
  rw [flag, complete, totals, start, finish]
  exact (if_neg steady).trans (if_pos h)

theorem acceptGauging_outside (free : ¬ s.rating.adoption.request.isSome = true)
    (h : inverseLookup s.rating.active.points x.measured = none) :
    acceptGauging (beWord w) s = refused s .outOfLimits 0 := by
  unfold acceptGauging
  rw [readWords_beWord]
  dsimp only
  rw [flag, complete, totals, start, finish]
  dsimp only
  rw [if_neg steady, if_neg free, h]

theorem acceptGauging_proposes {stage : Int} (free : ¬ s.rating.adoption.request.isSome = true)
    (h : inverseLookup s.rating.active.points x.measured = some stage) :
    acceptGauging (beWord w) s = acceptProposal (meanStage a b) (stage - meanStage a b) s := by
  unfold acceptGauging
  rw [readWords_beWord]
  dsimp only
  rw [flag, complete, totals, start, finish]
  dsimp only
  rw [if_neg steady, if_neg free, h]

end

theorem acceptProposal_error {s : State} {id : BitVec 16} {mean proposal : Int} {why : Reject} (named : s.run.id = some id)
    (h : acceptShift s id mean proposal = .error why) : acceptProposal mean proposal s = refused s why 0 := by
  unfold acceptProposal
  rw [named]
  dsimp only [Option.getD_some]
  rw [h]

theorem acceptProposal_ok {s : State} {id : BitVec 16} {mean proposal : Int} {p : Placement} (named : s.run.id = some id)
    (h : acceptShift s id mean proposal = .ok p) : acceptProposal mean proposal s =
      done (p.state.setRun (s.run.accept proposal))
        (be2 proposal ++ be1 p.slot ++ be4 p.lower ++ be4 p.upper ++ be1 p.placedNew.toNat) := by
  unfold acceptProposal
  rw [named]
  dsimp only [Option.getD_some]
  rw [h]

theorem accept_eq {r : RunRecord} {x : Totals} (h : r.totals = some x) (proposal : Int) : r.accept proposal =
    { r with state := .accepted, totals := some { x with proposed := some proposal } } := by
  unfold RunRecord.accept
  rw [h]
  rfl

/-! ### The Rating Store's part (R76, R77) -/

section
variable {s : State} {id : BitVec 16} {mean proposal : Int}

theorem within_natAbs (limit v : Int) : within (-limit) limit v = true ↔ (v.natAbs : Int) ≤ limit := by
  rw [within_iff]
  omega

theorem acceptShift_outside (h : s.setting .shiftLimit < (proposal.natAbs : Int)) :
    acceptShift s id mean proposal = .error .outOfLimits := by
  unfold acceptShift
  exact if_pos fun within => absurd ((within_natAbs _ _).mp within) (by omega)

variable (small : (proposal.natAbs : Int) ≤ s.setting .shiftLimit)
include small

theorem acceptShift_retargets {k : Nat} {b : Band} (h : s.rating.bands.containing mean = some (k, b)) :
    acceptShift s id mean proposal =
      .ok { state := s.setBands (s.rating.bands.put k (some (b.retarget s.clock id proposal))), slot := k,
            lower := b.lower, upper := b.upper, placedNew := false } := by
  unfold acceptShift
  rw [if_neg (not_not.mpr ((within_natAbs _ _).mpr small)), h]

variable (uncovered : s.rating.bands.containing mean = none)
include uncovered

theorem acceptShift_full (full : (s.rating.bands.slots.find? fun p => p.2.isNone) = none) :
    acceptShift s id mean proposal = .error .tableFull := by
  unfold acceptShift
  rw [if_neg (not_not.mpr ((within_natAbs _ _).mpr small)), uncovered]
  dsimp only
  rw [full]

variable {k : Nat} {b : Option Band} (slot : (s.rating.bands.slots.find? fun p => p.2.isNone) = some (k, b))
  {lower upper : Int} (isLower : clippedLower (s.rating.bands.inUse.map fun p => p.2) mean (s.setting .shiftHalfWidth) = lower)
  (isUpper : clippedUpper (s.rating.bands.inUse.map fun p => p.2) mean (s.setting .shiftHalfWidth) = upper)
include slot isLower isUpper

theorem acceptShift_noRoom (narrow : upper - lower < 20) : acceptShift s id mean proposal = .error .noRoom := by
  unfold acceptShift
  rw [if_neg (not_not.mpr ((within_natAbs _ _).mpr small)), uncovered]
  dsimp only
  rw [slot, isLower, isUpper]
  exact if_pos narrow

theorem acceptShift_places (wide : 20 ≤ upper - lower) : acceptShift s id mean proposal =
    .ok { state := s.setBands (s.rating.bands.put k (some
            { state := .ramping, lower := lower, upper := upper, target := proposal, applied := 0,
              origin := .gauging id, changed := s.clock })),
          slot := k, lower := lower, upper := upper, placedNew := true } := by
  unfold acceptShift
  rw [if_neg (not_not.mpr ((within_natAbs _ _).mpr small)), uncovered]
  dsimp only
  rw [slot, isLower, isUpper]
  exact if_neg (not_lt.mpr wide)

end

/-! ### The slot and the range of a new band (R77) -/

theorem firstEmpty_none {t : ShiftTable} (full : ∀ k, t.get k ≠ none) : (t.slots.find? fun p => p.2.isNone) = none := by
  refine List.find?_eq_none.mpr fun p hp => ?_
  unfold ShiftTable.slots at hp
  obtain ⟨i, -, rfl⟩ := List.mem_map.mp hp
  simpa using full i

theorem firstEmpty_some {t : ShiftTable} {k : Fin Config.shiftBands} (empty : t.get k = none)
    (least : ∀ j, j < k → t.get j ≠ none) : (t.slots.find? fun p => p.2.isNone) = some (k.val, none) := by
  have length : t.slots.length = Config.shiftBands := by simp [ShiftTable.slots]
  have at_ : ∀ (i : Nat) (hi : i < t.slots.length), t.slots[i] = (i, t.get ⟨i, length ▸ hi⟩) := fun i hi => by
    simp [ShiftTable.slots]
  have hk : k.val < t.slots.length := length.symm ▸ k.isLt
  refine List.find?_eq_some_iff_getElem.mpr ⟨rfl, k.val, hk, by rw [at_ _ hk]; exact congrArg _ empty, fun j hj => ?_⟩
  rw [at_ j (hj.trans hk)]
  simpa [Option.isSome_iff_ne_none] using least ⟨j, _⟩ hj

theorem greatest_mem (least : Int) (l : List Int) : greatest least l = least ∨ greatest least l ∈ l := by
  induction l with
  | nil => exact .inl rfl
  | cons v l ih =>
    unfold greatest
    rcases max_choice v (greatest least l) with h | h
    · exact .inr (by rw [h]; exact List.mem_cons_self)
    · rw [h]
      exact ih.imp_right (List.mem_cons_of_mem v)

theorem least_mem (most : Int) (l : List Int) : least most l = most ∨ least most l ∈ l := by
  induction l with
  | nil => exact .inl rfl
  | cons v l ih =>
    unfold least
    rcases min_choice v (least most l) with h | h
    · exact .inr (by rw [h]; exact List.mem_cons_self)
    · rw [h]
      exact ih.imp_right (List.mem_cons_of_mem v)

/-- The edges of the bands in use that satisfy a test. -/
theorem mem_edges (t : ShiftTable) (test : Band → Bool) (edge : Band → Int) (v : Int) :
    v ∈ (((t.inUse.map fun p => p.2).filter test).map edge) ↔
      ∃ j b, t.get j = some b ∧ test b = true ∧ v = edge b := by
  simp only [List.mem_map, List.mem_filter]
  constructor
  · rintro ⟨b, ⟨⟨p, hp, rfl⟩, passes⟩, rfl⟩
    obtain ⟨j, -, hj⟩ := (mem_inUse t p).mp hp
    exact ⟨j, p.2, hj, passes, rfl⟩
  · rintro ⟨j, b, hj, passes, rfl⟩
    exact ⟨b, ⟨⟨(j.val, b), (mem_inUse t _).mpr ⟨j, rfl, hj⟩, rfl⟩, passes⟩, rfl⟩

/-- R77: the lower stage is the greatest of the edges below the mean stage. -/
theorem clippedLower_eq {t : ShiftTable} {mean half lower : Int} {below : Int → Prop}
    (edges : ∀ v, below v ↔ v = max (-2000) (mean - half) ∨
      ∃ j b, t.get j = some b ∧ b.upper ≤ mean ∧ v = b.upper)
    (isBelow : below lower) (greatest : ∀ v, below v → v ≤ lower) :
    clippedLower (t.inUse.map fun p => p.2) mean half = lower := by
  have iff : ∀ v, below v ↔ v = max Config.stageMin (mean - half) ∨
      v ∈ (((t.inUse.map fun p => p.2).filter fun b => decide (b.upper ≤ mean)).map fun b => b.upper) := fun v => by
    rw [edges, mem_edges]
    simp only [decide_eq_true_eq]
    rfl
  exact le_antisymm (greatest _ ((iff _).mpr (greatest_mem _ _))) (le_greatest ((iff _).mp isBelow))

/-- R77: the upper stage is the least of the edges above the mean stage. -/
theorem clippedUpper_eq {t : ShiftTable} {mean half upper : Int} {above : Int → Prop}
    (edges : ∀ v, above v ↔ v = min 30000 (mean + half) ∨
      ∃ j b, t.get j = some b ∧ mean < b.lower ∧ v = b.lower)
    (isAbove : above upper) (least : ∀ v, above v → upper ≤ v) :
    clippedUpper (t.inUse.map fun p => p.2) mean half = upper := by
  have iff : ∀ v, above v ↔ v = min Config.stageMax (mean + half) ∨
      v ∈ (((t.inUse.map fun p => p.2).filter fun b => decide (mean < b.lower)).map fun b => b.lower) := fun v => by
    rw [edges, mem_edges]
    simp only [decide_eq_true_eq]
    rfl
  exact le_antisymm (least_le ((iff _).mp isAbove)) (least _ ((iff _).mpr (least_mem _ _)))

end Sys2Proof.Machine

open Sys2Proof Sys2Proof.Machine

/-- Settles O56: the checks in their order, then the containing band retargeted, or a new band placed in the first Empty
slot. -/
theorem acceptGaugingPlacesTheShift : Obligations.AcceptGaugingPlacesTheShift := by
  intro force id a b h x s running heard empty request refused run mean proposal limit taken
  have l : Listens s := ⟨running, heard, empty⟩
  have flag : flagOf (if force then 1 else 0) = some force := flagOf_bool force
  have fails : ∀ {why : Reject}, acceptGauging (beWord (if force then 1 else 0)) s = Machine.refused s why 0 →
      refused (BitVec.ofNat 8 why.code) := fun owned => l.exec_refused (detail := 0) .acceptGauging (by simp) owned
  refine ⟨fun w unknown => l.exec_badField .acceptGauging (by simp) (acceptGauging_badFlag (flagOf_none unknown)),
    fun notComplete => fails (acceptGauging_notComplete flag notComplete),
    fun complete named totals start finish => ⟨fun unsteady plain =>
      fails (acceptGauging_unsteady flag complete totals start finish unsteady plain), fun forced => ?_⟩⟩
  have steady : ¬ (s.run.flags.unsteady = true ∧ force = false) := fun ⟨unsteady, plain⟩ => by
    cases (forced unsteady).symm.trans plain
  refine ⟨fun adopting => ?adopting, fun free outside => ?outside, fun free found => ?_⟩
  case adopting =>
    exact fails (acceptGauging_adopting flag complete totals start finish steady (Option.isSome_iff_ne_none.mpr adopting))
  case outside =>
    exact fails (acceptGauging_outside flag complete totals start finish steady (by rw [free]; decide) outside)
  have proposes := acceptGauging_proposes flag complete totals start finish steady (by rw [free]; decide) found
  have error : ∀ {why : Reject}, acceptShift s id mean proposal = .error why → refused (BitVec.ofNat 8 why.code) :=
    fun h => fails (proposes.trans (acceptProposal_error named h))
  have takes : ∀ {k : Fin 8} {band : Band} {new : Bool} {placed : Byte}, be1 (new.toNat : Int) = [placed] →
      acceptShift s id mean proposal =
        .ok { state := s.setBands (s.rating.bands.put k.val (some band)), slot := k.val, lower := band.lower,
              upper := band.upper, placedNew := new } → taken k band placed := fun {k band new placed} byte h => by
    have accepted := proposes.trans (acceptProposal_ok named h)
    rw [accept_eq (r := s.run) totals] at accepted
    dsimp only at accepted
    rw [ShiftTable.put_eq_set, byte] at accepted
    exact l.exec_done .acceptGauging (by simp) accepted
  refine ⟨fun large => error (acceptShift_outside large), fun small => ⟨fun k old law present lower upper => ?retargets,
    fun outside => ?_⟩⟩
  case retargets =>
    exact takes (new := false) rfl (acceptShift_retargets small (containing_of_covers law present lower upper))
  have uncovered : s.rating.bands.containing mean = none := containing_of_none outside
  refine ⟨fun full => error (acceptShift_full small uncovered (firstEmpty_none full)), ?_⟩
  intro k lower upper empty least half below above isBelow greatest isAbove least'
  have slot := firstEmpty_some empty least
  have isLower := clippedLower_eq (below := below) (fun _ => Iff.rfl) isBelow greatest
  have isUpper := clippedUpper_eq (above := above) (fun _ => Iff.rfl) isAbove least'
  exact ⟨fun wide => takes (new := true) rfl (acceptShift_places small uncovered slot isLower isUpper wide),
    fun narrow => error (acceptShift_noRoom small uncovered slot isLower isUpper narrow)⟩

end

section
/-! The return of a run and its completion (R129 to R131, R133): the way to Top and home, the partial discharges and the
totals. -/

namespace Sys2Proof.Machine

/-! ### The partial discharges (R130) -/

/-- R130: the distance of the Measure vertical before, once a part of the entries is passed. -/
def lastMeasured : Option Int → List Entry → Option Int
  | before, [] => before
  | before, e :: es => if e.skipped then lastMeasured before es else lastMeasured (some e.distance) es

theorem fillDischarges_length (before : Option Int) (es : List Entry) :
    (fillDischarges before es).length = es.length := by
  induction es generalizing before with
  | nil => rfl
  | cons e es ih =>
    unfold fillDischarges
    split
    · exact congrArg (· + 1) (ih _)
    · exact congrArg (· + 1) (ih _)

theorem fillDischarges_skipped {es : List Entry} {k : Nat} {e : Entry} (before : Option Int) (present : es[k]? = some e)
    (skipped : e.skipped = true) : (fillDischarges before es)[k]? = some e := by
  induction es generalizing before k with
  | nil => cases present
  | cons a es ih =>
    unfold fillDischarges
    cases k with
    | zero =>
      cases present
      rw [if_pos skipped]
      rfl
    | succ k =>
      split
      · exact ih _ present
      · exact ih _ present

/-- R130: a measured entry takes its panel, between the measured entries beside it. -/
theorem fillDischarges_measured {es : List Entry} {k : Nat} {e : Entry} (before : Option Int) (present : es[k]? = some e)
    (measured : e.skipped = false) : (fillDischarges before es)[k]? = some { e with
      discharge := e.panel ((nextMeasured (es.drop (k + 1))).getD e.distance -
        (lastMeasured before (es.take k)).getD e.distance) } := by
  induction es generalizing before k with
  | nil => cases present
  | cons a es ih =>
    unfold fillDischarges
    cases k with
    | zero =>
      cases present
      rw [if_neg (by rw [measured]; decide)]
      rfl
    | succ k =>
      split
      · next skipped =>
        rw [List.take_succ_cons, lastMeasured, if_pos skipped]
        exact ih _ present
      · next met =>
        rw [List.take_succ_cons, lastMeasured, if_neg met]
        exact ih _ present

theorem nextMeasured_some {l : List Entry} {j : Nat} {x : Entry} (present : l[j]? = some x) (measured : x.skipped = false)
    (between : ∀ i y, i < j → l[i]? = some y → y.skipped = true) : nextMeasured l = some x.distance := by
  induction l generalizing j with
  | nil => cases present
  | cons a l ih =>
    unfold nextMeasured
    cases j with
    | zero =>
      cases present
      rw [if_neg (by rw [measured]; decide)]
    | succ j =>
      rw [if_pos (between 0 a (Nat.succ_pos j) rfl)]
      exact ih present fun i y hi hy => between (i + 1) y (Nat.succ_lt_succ hi) hy

theorem nextMeasured_none {l : List Entry} (skipped : ∀ (i : Nat) (y : Entry), l[i]? = some y → y.skipped = true) :
    nextMeasured l = none := by
  induction l with
  | nil => rfl
  | cons a l ih =>
    unfold nextMeasured
    rw [if_pos (skipped 0 a rfl)]
    exact ih fun i y hy => skipped (i + 1) y hy

theorem lastMeasured_none {l : List Entry} (before : Option Int)
    (skipped : ∀ (i : Nat) (y : Entry), l[i]? = some y → y.skipped = true) : lastMeasured before l = before := by
  induction l with
  | nil => rfl
  | cons a l ih =>
    rw [lastMeasured, if_pos (skipped 0 a rfl)]
    exact ih fun i y hy => skipped (i + 1) y hy

theorem lastMeasured_some {l : List Entry} {j : Nat} {x : Entry} (before : Option Int) (present : l[j]? = some x)
    (measured : x.skipped = false) (after : ∀ i y, j < i → l[i]? = some y → y.skipped = true) :
    lastMeasured before l = some x.distance := by
  induction l generalizing j before with
  | nil => cases present
  | cons a l ih =>
    cases j with
    | zero =>
      cases present
      rw [lastMeasured, if_neg (by rw [measured]; decide)]
      exact lastMeasured_none _ fun i y hy => after (i + 1) y (Nat.succ_pos i) hy
    | succ j =>
      have goesOn : ∀ before, lastMeasured before l = some x.distance := fun before =>
        ih before present fun i y hi hy => after (i + 1) y (Nat.succ_lt_succ hi) hy
      rw [lastMeasured]
      split
      · exact goesOn _
      · exact goesOn _

/-- R130: the edge of a panel on the side of the entries after. -/
theorem nextMeasured_eq {es : List Entry} {k : Nat} {distance after : Int}
    (h : (∃ (j : Nat) (x : Entry), k < j ∧ es[j]? = some x ∧ x.skipped = false ∧ after = x.distance ∧
        ∀ (l : Nat) (y : Entry), k < l → l < j → es[l]? = some y → y.skipped = true) ∨
      after = distance ∧ ∀ (l : Nat) (y : Entry), k < l → es[l]? = some y → y.skipped = true) :
    (nextMeasured (es.drop (k + 1))).getD distance = after := by
  rcases h with ⟨j, x, beyond, present, measured, rfl, between⟩ | ⟨rfl, none⟩
  · obtain ⟨i, rfl⟩ : ∃ i, j = k + 1 + i := ⟨j - (k + 1), by omega⟩
    rw [nextMeasured_some (j := i) (List.getElem?_drop.trans present) measured fun l y hl hy =>
      between (k + 1 + l) y (by omega) (by omega) (List.getElem?_drop.symm.trans hy)]
    rfl
  · rw [nextMeasured_none fun l y hy => none (k + 1 + l) y (by omega) (List.getElem?_drop.symm.trans hy)]
    rfl

/-- R130: the edge of a panel on the side of the entries before. -/
theorem lastMeasured_eq {es : List Entry} {k : Nat} {distance before : Int}
    (h : (∃ (j : Nat) (x : Entry), j < k ∧ es[j]? = some x ∧ x.skipped = false ∧ before = x.distance ∧
        ∀ (l : Nat) (y : Entry), j < l → l < k → es[l]? = some y → y.skipped = true) ∨
      before = distance ∧ ∀ (l : Nat) (y : Entry), l < k → es[l]? = some y → y.skipped = true) :
    (lastMeasured none (es.take k)).getD distance = before := by
  have taken : ∀ {i : Nat} {y : Entry}, (es.take k)[i]? = some y → i < k ∧ es[i]? = some y := fun {i y} h => by
    rw [List.getElem?_take] at h
    split at h
    · next hi => exact ⟨hi, h⟩
    · cases h
  rcases h with ⟨j, x, earlier, present, measured, rfl, between⟩ | ⟨rfl, none⟩
  · rw [lastMeasured_some none ((List.getElem?_take_of_lt earlier).trans present) measured fun i y hi hy =>
      between i y hi (taken hy).1 (taken hy).2]
    rfl
  · rw [lastMeasured_none _ fun i y hy => none i y (taken hy).1 (taken hy).2]
    rfl

theorem panel_none {e : Entry} (width : Int) (h : e.mean = none ∨ e.depthUsed = none) : e.panel width = none := by
  unfold Entry.panel
  rcases h with h | h
  · rw [h]
  · rw [h]
    cases e.mean <;> rfl

theorem panel_some {e : Entry} {v d : Int} (width : Int) (mean : e.mean = some v) (depth : e.depthUsed = some d) :
    e.panel width = some (roundHalfUp (v * d * width) 200000) := by
  unfold Entry.panel
  rw [mean, depth]

/-! ### The end of the return (R129, R131) -/

theorem finishReturn_none {s : State} (h : s.run.endReason = none) : finishReturn s = completeRun s := by
  unfold finishReturn
  rw [h]

theorem totalsOf_stages {s : State} {a b : Int} (es : List Entry) (start : s.run.startStage = some a)
    (finish : s.run.endStage = some b) : totalsOf s es =
      ({ measured := measuredDischarge es, rated := (forwardLookup s (meanStage a b)).discharge,
         flag := (forwardLookup s (meanStage a b)).flag,
         ratio := ratioOf (measuredDischarge es) (forwardLookup s (meanStage a b)).discharge, proposed := none },
       decide (s.setting .unsteadyLimit < ((b - a).natAbs : Int))) := by
  unfold totalsOf
  rw [start, finish]

/-- R129 to R131: a run that completes with both stages. -/
theorem completeRun_run {s : State} {a b : Int} (start : s.run.startStage = some a) (finish : s.run.endStage = some b) :
    (completeRun s).gauging.run = { s.gauging.run with
      state := .complete, step := none, current := none, triggerMet := none, waitRemaining := none,
      endReason := some .complete, results := fillDischarges none s.gauging.run.results,
      flags := { s.gauging.run.flags with unsteady := decide (s.setting .unsteadyLimit < ((b - a).natAbs : Int)) },
      totals := some {
        measured := measuredDischarge (fillDischarges none s.gauging.run.results),
        rated := (forwardLookup s (meanStage a b)).discharge, flag := (forwardLookup s (meanStage a b)).flag,
        ratio := ratioOf (measuredDischarge (fillDischarges none s.gauging.run.results))
          (forwardLookup s (meanStage a b)).discharge,
        proposed := none } } := by
  unfold completeRun
  dsimp only
  rw [totalsOf_stages _ start finish]
  rfl

theorem finishReturn_leaves (s : State) : (finishReturn s).cable = s.cable ∧ (finishReturn s).verticals = s.verticals ∧
    (finishReturn s).attends .runEnded = true := by
  unfold finishReturn
  split
  · exact ⟨rfl, rfl, endRun_attends _ _⟩
  · exact ⟨rfl, rfl, endRun_attends _ _⟩

/-! ### The movements of the return (R129, R133) -/

section
variable {s : State} {level : Level}

theorem withContact_asserted {c : Contact} (h : level = levelOfSetting (s.settings.read (levelSetting c))) :
    (s.withContact c level).asserted c = true := by
  rw [asserted_iff]
  refine Eq.trans ?_ h
  cases c <;> rfl

/-- R133: Top at the end of the raise of the return. -/
theorem contactChange_top_returns (running : s.resetHeld = false) (returning : s.run.state = .returning)
    (step : s.run.step = some .returnRaise) (raising : s.cable.activity = .moving .raiseToTop)
    (change : level ≠ s.cable.contacts.top) (top : (s.withContact .top level).asserted .top = true)
    (away : s.asserted .home = false) :
    exec (.contactChange .top level) s = .next ((s.withContact .top level).rest .holding).headingHome := by
  have ends : contactChange .top level s = endMovement (s.withContact .top level) .holding .atTop :=
    (contactChange_top change).trans (contactTests_top (s := s.withContact .top level) raising top)
  have heads : takeResult .atTop ((s.withContact .top level).rest .holding) =
      going ((s.withContact .top level).rest .holding).headingHome :=
    (takeResult_atTop (s := (s.withContact .top level).rest .holding) returning step).trans
      (askReturnHome_travels (s := (s.withContact .top level).rest .holding) rfl rfl top away)
  exact (unlessHeld_running _ running).trans (congrArg _ ((congrArg deliver ends).trans (deliver_taken heads)))

/-- R96: the unit with a step of the depth encoder taken. -/
def State.hoistMoved (s : State) (e : QuadratureEdge) : State :=
  s.setCable { s.cable with depthCount := movedCount e s.cable.depthCount, hoist := s.cable.hoist.turned }

/-- R133: the raise to a point that was in progress ends on the return. -/
theorem depthCountChange_returns {e : QuadratureEdge} {target : Int} (running : s.resetHeld = false)
    (returning : s.run.state = .returning) (step : s.run.step = some .returnRaise)
    (raising : s.cable.activity = .moving (.raiseTo target)) (single : e.changed ≠ .both)
    (released : s.asserted .top = false) (reached : (s.hoistMoved e).depth ≤ target) :
    exec (.depthCountChange e) s = .next ((s.hoistMoved e).rest .holding).raisingHome := by
  have ends : depthCountChange e s = endMovement (s.hoistMoved e) .holding .reached :=
    (depthCountChange_moves single).trans ((hoistTests_raise (s := s.hoistMoved e) raising).trans (if_pos reached))
  have again : takeResult .reached ((s.hoistMoved e).rest .holding) = going ((s.hoistMoved e).rest .holding).raisingHome :=
    (takeResult_again (s := (s.hoistMoved e).rest .holding) returning step (.inl rfl)).trans
      (askReturnRaise_raises (s := (s.hoistMoved e).rest .holding) rfl rfl released)
  exact (unlessHeld_running _ running).trans (congrArg _ ((congrArg deliver ends).trans (deliver_taken again)))

/-- R129: Home at the end of the return. -/
theorem contactChange_home_finishes (running : s.resetHeld = false) (returning : s.run.state = .returning)
    (step : s.run.step = some .returnHome) (goHome : s.cable.activity = .moving .goHome)
    (change : level ≠ s.cable.contacts.home) (home : (s.withContact .home level).asserted .home = true) :
    exec (.contactChange .home level) s =
      .next (finishReturn ((loadHome (s.withContact .home level)).rest .parked)) := by
  have ends : contactChange .home level s = endMovement (loadHome (s.withContact .home level)) .parked .home :=
    (contactChange_home_asserts change home).trans (homeEdge_goHome (s := s.withContact .home level) goHome)
  have finishes : takeResult .home ((loadHome (s.withContact .home level)).rest .parked) = _ :=
    takeResult_home (s := (loadHome (s.withContact .home level)).rest .parked) returning step
  exact (unlessHeld_running _ running).trans (congrArg _ ((congrArg deliver ends).trans (deliver_taken finishes)))

end

end Sys2Proof.Machine

open Sys2Proof Sys2Proof.Machine

/-- Settles O54: the results that carry the return home, and the record that the arrival leaves, with the panels of its
entries. -/
theorem completionWorksOutTheDischarge : Obligations.CompletionWorksOutTheDischarge := by
  refine ⟨fun s running returning step => ⟨fun level raising change asserts away => ?atTop,
    fun e target raising single released reached => ?reached⟩, ?home⟩
  case atTop =>
    exact ⟨_, contactChange_top_returns running returning step raising change (withContact_asserted (c := .top) asserts)
      away, rfl, rfl, rfl, rfl, rfl, rfl⟩
  case reached =>
    have same : ({ s.gauging.run with step := some .returnRaise } : RunRecord) = s.gauging.run := by rw [← step]
    refine ⟨_, depthCountChange_returns running returning step raising single released reached, ?_, rfl, rfl, rfl, rfl,
      rfl⟩
    exact congrArg (fun r => { s.gauging with run := r }) same
  case home =>
    intro level s running goHome returning step change asserts run
    have finishes := contactChange_home_finishes running returning step goHome change
      (withContact_asserted (c := .home) asserts)
    generalize parked : (loadHome (s.withContact .home level)).rest .parked = u at finishes
    have gauging : u.gauging = s.gauging := by rw [← parked]; rfl
    have rates : ∀ h, forwardLookup u h = forwardLookup s h := fun h => by rw [← parked]; rfl
    have limit : u.setting .unsteadyLimit = s.settings.read .unsteadyLimit := by rw [← parked]; rfl
    obtain ⟨cable, verticals, ended⟩ := finishReturn_leaves u
    refine ⟨finishReturn u, finishes, by rw [cable, ← parked]; rfl, by rw [cable, ← parked]; rfl,
      by rw [cable, ← parked]; rfl, by rw [cable, ← parked]; rfl, by rw [cable, ← parked]; rfl, ended,
      by rw [verticals, ← parked]; rfl, fun reason h => ?aborted, fun h a b start finish => ?complete⟩
    case aborted =>
      have kept : u.run.endReason = some reason := (congrArg (fun g : GaugingUnit => g.run.endReason) gauging).trans h
      rw [finishReturn_reason kept]
      exact congrArg (fun g : GaugingUnit => { g.run with
        state := .aborted, step := none, current := none, triggerMet := none, waitRemaining := none }) gauging
    case complete =>
      have start' : u.run.startStage = some a := (congrArg (fun g : GaugingUnit => g.run.startStage) gauging).trans start
      have finish' : u.run.endStage = some b := (congrArg (fun g : GaugingUnit => g.run.endStage) gauging).trans finish
      have completed := completeRun_run start' finish'
      rw [gauging, rates, limit] at completed
      refine ⟨fillDischarges none run.results, ?_, fillDischarges_length _ _, fun k e present =>
        ⟨fillDischarges_skipped none present, fun measured => ?_⟩⟩
      · rw [finishReturn_none ((congrArg (fun g : GaugingUnit => g.run.endReason) gauging).trans h)]
        exact completed
      · have filled := fillDischarges_measured none present measured
        refine ⟨fun absent => ?_, fun v d before after mean depth isBefore isAfter => ?_⟩
        · rw [filled, panel_none _ absent]
        · rw [filled, nextMeasured_eq isAfter, lastMeasured_eq isBefore, panel_some _ mean depth]

end

section
/-! A vertical of a run (R100, R124, R128, R129): the arrival at it, and what follows when it is finished: the next one,
or the way home. -/

namespace Sys2Proof.Machine

/-! ### A vertical finished (R128, R129) -/

/-- R129: the last vertical is finished and the run is on its way home. -/
def GoesHome (s t : State) : Prop :=
  t.gauging.run.state = .returning ∧ t.gauging.run.step = some .returnHome ∧ t.gauging.run.current = none ∧
  t.gauging.run.endTime = some s.clock ∧ t.cable.state = .traversing ∧ t.cable.activity = .moving .goHome ∧
  t.cable.traverse.start = some .inward ∧ t.cable.hoist.on = false

/-- R128: the run is on its way to the next vertical. -/
def OnTheWay (t : State) (j : Nat) (w : Vertical) : Prop :=
  t.gauging.run.state = .running ∧ t.gauging.run.step = some .traverse ∧ t.gauging.run.current = some j ∧
  t.cable.state = .traversing ∧ t.cable.activity = .moving (.traverseTo w.distance .outward) ∧
  t.cable.traverse.start = some .outward

/-- R124, R129: the results with the Skip verticals passed entered after the last. -/
def Recorded (s t : State) (upTo : List Entry) (last : Int) (below : Option Int) : Prop :=
  ∃ skipped, PassedOver s.verticals (some last) below skipped ∧ t.gauging.run.results = upTo ++ skipped

section
variable {s : State} {i : Nat} {es : List Entry} {e : Entry}

theorem nextVisit_current (current : s.gauging.run.current = some i) :
    s.nextVisit = s.gauging.visit.find? fun k => decide (i < k) := by
  unfold State.nextVisit State.run
  rw [current]

theorem nextVisit_none (current : s.gauging.run.current = some i) (last : ∀ j ∈ s.gauging.visit, j ≤ i) :
    s.nextVisit = none := by
  rw [nextVisit_current current]
  refine List.find?_eq_none.mpr fun j hj => ?_
  simpa using last j hj

/-- The Skip verticals passed once an entry is the last of the results. -/
theorem skippedEntries_recorded (below : Option Int) (results : s.gauging.run.results = es ++ [e]) :
    PassedOver s.verticals (some e.distance) below (s.skippedEntries below) := by
  have passed := skippedEntries_passedOver s below
  rw [results, List.getLast?_append_of_ne_nil _ (List.cons_ne_nil e [])] at passed
  exact passed

variable (holding : s.cable.state = .holding) (idle : s.cable.activity = .idle) (top : s.asserted .top = true)
  (current : s.gauging.run.current = some i) (results : s.gauging.run.results = es ++ [e])
include holding idle top current results

/-- R129: the last vertical of the visit list is finished. -/
theorem finishVertical_heads (last : ∀ j ∈ s.gauging.visit, j ≤ i) (away : s.asserted .home = false) :
    ∃ t, Follows 1 (finishVertical s) t ∧ GoesHome s t ∧ Recorded s t (es ++ [e]) e.distance none ∧
      t.gauging.run.endReason = s.gauging.run.endReason ∧
      t.gauging.run.endStage = s.stage.record.stage.or e.arrivalStage := by
  have ends : finishVertical s = endMeasuring s := by
    unfold finishVertical
    rw [nextVisit_none current last]
  have arrived : (s.entry.bind fun e => e.arrivalStage) = e.arrivalStage := by
    rw [entry_last results]
    rfl
  rw [ends]
  unfold endMeasuring
  dsimp only
  rw [arrived]
  refine ⟨_, return_heads (s := s.setRun _) rfl holding idle top away, ⟨rfl, rfl, rfl, rfl, rfl, rfl, rfl, rfl⟩,
    ⟨s.skippedEntries none, skippedEntries_recorded none results, ?_⟩, rfl, rfl⟩
  rw [← results]
  rfl

/-- R128: the next Measure vertical is beyond the carriage. -/
theorem finishVertical_departs {j : Nat} {w : Vertical} (running : s.gauging.run.state = .running)
    (next : s.gauging.visit.find? (fun k => decide (i < k)) = some j) (vertical : s.verticals[j]? = some w)
    (short : s.position < w.distance - 5) (free : s.warning.effects.cableInhibit = []) :
    ∃ t, finishVertical s = going t ∧ OnTheWay t j w ∧ Recorded s t (es ++ [e]) e.distance (some w.distance) := by
  have visits : finishVertical s = traverseToVertical j (enterVertical j s) := by
    unfold finishVertical
    rw [nextVisit_current current, next]
  have enters : enterVertical j s =
      (s.setRun { s.run with current := some j, step := some .traverse }).appendEntries
        (s.skippedEntries (some w.distance)) := by
    unfold enterVertical
    rw [vertical]
  have asks : ∀ u : State, u.verticals[j]? = some w →
      traverseToVertical j u = ask .traverse (.traverseTo w.distance) u := fun u h => by
    unfold traverseToVertical
    rw [h]
  rw [visits, enters]
  generalize entered : (s.setRun _).appendEntries _ = u
  have cable : u.cable = s.cable := by rw [← entered]; rfl
  have asked := asks u (by rw [← entered]; exact vertical)
  subst entered
  refine ⟨_, asked.trans (takeTraverseTo_departs (s := State.setStep _ .traverse) (.inr holding) idle top short free), ⟨running, rfl, rfl, rfl, rfl, rfl⟩,
    s.skippedEntries (some w.distance), skippedEntries_recorded _ results, ?_⟩
  rw [← results]
  rfl

end

/-! ### The arrival (R100, R124) -/

section
variable {s : State}

theorem arrival_lost (h : s.stage.record.quality = .none) : arrival s = abortRun .stageLost s := by
  unfold arrival
  rw [h]

/-- R124: with no stage the run goes home. -/
theorem arrival_lost_heads (holding : s.cable.state = .holding) (idle : s.cable.activity = .idle)
    (top : s.asserted .top = true) (away : s.asserted .home = false) (h : s.stage.record.quality = .none) :
    ∃ t, Follows 1 (arrival s) t ∧ GoesHome s t ∧
      t.gauging.run.endReason = some (s.gauging.run.endReason.getD .stageLost) ∧
      t.gauging.run.results = s.gauging.run.results := by
  have gauging := abortedRun_gauging s .stageLost
  rw [arrival_lost h, abortRun_holding idle holding]
  refine ⟨_, return_heads (s := s.abortedRun .stageLost) rfl holding idle top away,
    ⟨rfl, rfl, rfl, rfl, rfl, rfl, rfl, rfl⟩, ?_, rfl⟩
  exact congrArg (fun g : GaugingUnit => g.run.endReason) gauging

/-- R124: the entry of an arrival. -/
def arrivalEntry (i : Nat) (v : Vertical) (stage : Int) : Entry :=
  { Entry.blank i v.distance with arrivalStage := some stage }

/-- R124: the unit with an arrival entered. -/
def State.arrived (s : State) (v : Vertical) (stage : Int) (entry : Entry) (flags : RunFlags) : State :=
  s.setGauging { s.gauging with
    arrivalDepth := depthAt v.bed stage,
    run := { s.gauging.run with
      startStage := some (s.gauging.run.startStage.getD stage), flags := flags,
      results := s.gauging.run.results ++ [entry] } }

variable {i : Nat} {v : Vertical} {stage : Int}

theorem arriveWith_eq : arriveWith i v stage s =
    if depthAt v.bed stage < s.settings.read .minimumDepth then
      finishVertical ((s.arrived v stage (arrivalEntry i v stage) s.run.flags).updateEntry
        (Entry.markDry (depthAt v.bed stage)))
    else if !s.warning.effects.surfaceOnly.isEmpty || v.plan == .surfaceOnly then
      ask .surfaceLower (.lowerTo Config.surfaceDepth false)
        (s.arrived v stage (arrivalEntry i v stage)
          { s.run.flags with surfaceUsed := s.run.flags.surfaceUsed || !s.warning.effects.surfaceOnly.isEmpty })
    else
      ask .sound (.lowerTo (min Config.depthMax (depthAt v.bed stage + Config.soundingMargin)) true)
        (s.arrived v stage (arrivalEntry i v stage) s.run.flags) := by
  have started : s.gauging.run.startStage.or (some stage) = some (s.gauging.run.startStage.getD stage) := Option.or_some
  unfold State.arrived
  rw [← started]
  rfl

/-- R124: the weight goes down at the vertical. -/
theorem ask_lowers {x : Step} {target : Int} {stop : Bool} (holding : s.cable.state = .holding)
    (idle : s.cable.activity = .idle) (free : s.inhibited = false) (dry : s.asserted .surface = false)
    (released : s.asserted .bottom = false) (search : 0 < s.searchCounts) :
    ask x (.lowerTo target stop) s = going ((s.setStep x).setCable { s.cable.runHoist .down with
      state := .lowering, activity := .moving (.lowerTo target stop s.cable.depthCount false) }) :=
  takeLowerTo_lowers (s := s.setStep x) holding idle free dry released search

theorem arriveWith_dry (shallow : depthAt v.bed stage < s.settings.read .minimumDepth) :
    arriveWith i v stage s = finishVertical (s.arrived v stage
      (Entry.markDry (depthAt v.bed stage) (arrivalEntry i v stage)) s.run.flags) := by
  have marked : (s.arrived v stage (arrivalEntry i v stage) s.run.flags).updateEntry
      (Entry.markDry (depthAt v.bed stage)) = s.arrived v stage
        (Entry.markDry (depthAt v.bed stage) (arrivalEntry i v stage)) s.run.flags :=
    updateEntry_last (s := s.arrived v stage (arrivalEntry i v stage) s.run.flags) _ rfl
  rw [arriveWith_eq, if_pos shallow, marked]

theorem arriveWith_surface (deep : s.settings.read .minimumDepth ≤ depthAt v.bed stage)
    (surface : s.warning.effects.surfaceOnly ≠ []) : arriveWith i v stage s =
      ask .surfaceLower (.lowerTo 100 false)
        (s.arrived v stage (arrivalEntry i v stage) { s.run.flags with surfaceUsed := true }) := by
  have effect : (!s.warning.effects.surfaceOnly.isEmpty) = true := by simpa using surface
  rw [arriveWith_eq, if_neg (not_lt.mpr deep), effect, Bool.true_or, if_pos rfl, Bool.or_true]
  rfl

theorem arriveWith_plan (deep : s.settings.read .minimumDepth ≤ depthAt v.bed stage)
    (free : ¬ s.warning.effects.surfaceOnly ≠ []) (plan : v.plan = .surfaceOnly) : arriveWith i v stage s =
      ask .surfaceLower (.lowerTo 100 false) (s.arrived v stage (arrivalEntry i v stage) s.run.flags) := by
  have effect : (!s.warning.effects.surfaceOnly.isEmpty) = false := by simpa using free
  rw [arriveWith_eq, if_neg (not_lt.mpr deep), effect, plan,
    if_pos (show (false || MeasurePlan.surfaceOnly == .surfaceOnly) = true from rfl), Bool.or_false]
  rfl

theorem arriveWith_sound (deep : s.settings.read .minimumDepth ≤ depthAt v.bed stage)
    (free : ¬ s.warning.effects.surfaceOnly ≠ []) (plan : v.plan ≠ .surfaceOnly) : arriveWith i v stage s =
      ask .sound (.lowerTo (min 30000 (depthAt v.bed stage + 1000)) true)
        (s.arrived v stage (arrivalEntry i v stage) s.run.flags) := by
  have effect : (!s.warning.effects.surfaceOnly.isEmpty) = false := by simpa using free
  rw [arriveWith_eq, if_neg (not_lt.mpr deep), effect, Bool.false_or, if_neg (by simpa using plan)]
  rfl

/-- R95: the unit with a step of the traverse encoder taken. -/
def State.traverseMoved (s : State) (e : QuadratureEdge) : State :=
  s.setCable { s.cable with traverseCount := movedCount e s.cable.traverseCount, traverse := s.cable.traverse.turned }

/-- R95, R124: the Gauging Unit after an arrival, with the weight on its way down. -/
theorem arrived_gauging (s : State) (e : QuadratureEdge) (entry : Entry) (flags : RunFlags) (x : Step) :
    ((((s.traverseMoved e).rest .holding).arrived v stage entry flags).setStep x).gauging = { s.gauging with
      arrivalDepth := depthAt v.bed stage,
      run := { s.gauging.run with
        step := some x, startStage := some (s.gauging.run.startStage.getD stage), flags := flags,
        results := s.gauging.run.results ++ [entry] } } := (rfl)

/-- R100, R102: the cableway with the weight on its way down where a traverse has ended. -/
theorem arrived_cable (s : State) (e : QuadratureEdge) (entry : Entry) (flags : RunFlags) (a : Activity) :
    ({ (((s.traverseMoved e).rest .holding).arrived v stage entry flags).cable.runHoist .down with
        state := .lowering, activity := a } : Cableway) =
      { s.cable with
        state := .lowering, traverseCount := movedCount e s.cable.traverseCount, recovering := false, activity := a,
        traverse := { s.cable.traverse with on := false, start := none, jam := 0 },
        hoist := { s.cable.hoist with on := false, start := some .down, jam := 0 } } := (rfl)

/-- The last cableway and the last Gauging Unit given to a state. -/
theorem setCable_setGauging_last (s : State) (a b c : Cableway) (g h : GaugingUnit) :
    ((((s.setCable a).setCable b).setGauging g).setGauging h).setCable c = { s with cable := c, gauging := h } := rfl

/-- An arrival changes the Gauging Unit and the cableway alone. -/
theorem arrived_leaves (s : State) (e : QuadratureEdge) (entry : Entry) (flags : RunFlags) (x : Step) (c : Cableway) :
    ((((s.traverseMoved e).rest .holding).arrived v stage entry flags).setStep x).setCable c =
      { s with cable := c,
               gauging := ((((s.traverseMoved e).rest .holding).arrived v stage entry flags).setStep x).gauging } :=
  setCable_setGauging_last s _ _ c _ _

end

/-! ### The line events that bring the results (R95, R97, R118) -/

section
variable {s t : State} {k : Nat} (running : s.resetHeld = false) (underWay : s.run.state = .running)
include running underWay

theorem traverseCountChange_arrives {e : QuadratureEdge} {target : Int} {way : TraverseWay} (single : e.changed ≠ .both)
    (traversing : s.cable.activity = .moving (.traverseTo target way)) (step : s.run.step = some .traverse)
    (arrived : (s.traverseMoved e).arrivedAt target way = true) (few : k ≤ 7)
    (follows : Follows k (arrival ((s.traverseMoved e).rest .holding)) t) : exec (.traverseCountChange e) s = .next t := by
  have ends : traverseCountChange e s = endMovement (s.traverseMoved e) .holding .arrived :=
    (traverseCountChange_moves single).trans (traverseTests_arrives (s := s.traverseMoved e) traversing arrived)
  have taken : takeResult .arrived ((s.traverseMoved e).rest .holding) = arrival ((s.traverseMoved e).rest .holding) := by
    unfold takeResult
    rw [show ((s.traverseMoved e).rest .holding).run.state = .running from underWay,
      show ((s.traverseMoved e).rest .holding).run.step = some .traverse from step]
  have delivered : deliver (endMovement (s.traverseMoved e) .holding .arrived) = t :=
    (Follows.result taken follows).deliver_eq (by omega)
  exact (unlessHeld_running _ running).trans (congrArg _ ((congrArg deliver ends).trans delivered))

theorem contactChange_top_stowed {level : Level} (raising : s.cable.activity = .moving .raiseToTop)
    (step : s.run.step = some .stow) (change : level ≠ s.cable.contacts.top)
    (top : (s.withContact .top level).asserted .top = true) (few : k ≤ 7)
    (follows : Follows k (finishVertical ((s.withContact .top level).rest .holding)) t) :
    exec (.contactChange .top level) s = .next t := by
  have ends : contactChange .top level s = endMovement (s.withContact .top level) .holding .atTop :=
    (contactChange_top change).trans (contactTests_top (s := s.withContact .top level) raising top)
  have taken : takeResult .atTop ((s.withContact .top level).rest .holding) =
      finishVertical ((s.withContact .top level).rest .holding) := by
    unfold takeResult
    rw [show ((s.withContact .top level).rest .holding).run.state = .running from underWay,
      show ((s.withContact .top level).rest .holding).run.step = some .stow from step]
  have delivered : deliver (endMovement (s.withContact .top level) .holding .atTop) = t :=
    (Follows.result taken follows).deliver_eq (by omega)
  exact (unlessHeld_running _ running).trans (congrArg _ ((congrArg deliver ends).trans delivered))

end

end Sys2Proof.Machine

open Sys2Proof Sys2Proof.Machine

/-- Settles O51: the arrival with and without a stage, and the vertical finished, Dry on arrival or stowed. -/
theorem arrivalBeginsAVertical : Obligations.ArrivalBeginsAVertical := by
  unfold Obligations.ArrivalBeginsAVertical
  intro goingHome recorded onTheWay
  refine ⟨fun e target way i v s running single traversing underWay step current vertical free top away dry released
    search => ?arrival, fun level i es x s running raising underWay step current results free change asserts away => ?stowed⟩
  case arrival =>
    intro run record count position traverse hoist arrived
    have arrivedAt : (s.traverseMoved e).arrivedAt target way = true := (arrivedAt_iff (s.traverseMoved e) target way).mpr arrived
    have arrives : ∀ {k : Nat} {t : State}, k ≤ 7 → Follows k (arrival ((s.traverseMoved e).rest .holding)) t →
        exec (.traverseCountChange e) s = .next t := fun few follows =>
      traverseCountChange_arrives running underWay single traversing step arrivedAt few follows
    refine ⟨fun lost => ?lost, fun stage trusted present => ?_⟩
    case lost =>
      obtain ⟨t, follows, home, reason, results⟩ :=
        arrival_lost_heads (s := (s.traverseMoved e).rest .holding) rfl rfl top away lost
      exact ⟨t, arrives (by omega) follows, home, reason, results⟩
    intro depth entry lowers surface
    have with_ : arrival ((s.traverseMoved e).rest .holding) = arriveWith i v stage ((s.traverseMoved e).rest .holding) :=
      arrival_with (s := (s.traverseMoved e).rest .holding) trusted present current vertical
    have goesDown : ∀ {x : Step} {down : Int} {stop : Bool} {flags : RunFlags},
        arriveWith i v stage ((s.traverseMoved e).rest .holding) = ask x (.lowerTo down stop)
          (((s.traverseMoved e).rest .holding).arrived v stage (arrivalEntry i v stage) flags) → lowers x down stop flags :=
      fun {x down stop flags} asks => by
      have goes := ask_lowers (s := ((s.traverseMoved e).rest .holding).arrived v stage (arrivalEntry i v stage) flags)
        (x := x) (target := down) (stop := stop) rfl rfl ((inhibited_eq_false s).mpr free) dry released search
      rw [arrived_leaves, arrived_gauging, arrived_cable] at goes
      exact arrives (k := 0) (by omega) (.of_going 0 ((with_.trans asks).trans goes))
    refine ⟨fun deep => ⟨fun on => goesDown (arriveWith_surface deep on),
      fun off plan => goesDown (arriveWith_plan deep off plan), fun off plan => goesDown (arriveWith_sound deep off plan)⟩,
      fun shallow => ?_⟩
    intro dryEntry
    have finishes := with_.trans (arriveWith_dry (i := i) (s := (s.traverseMoved e).rest .holding) shallow)
    refine ⟨fun last => ?_, fun j w next vertical' short => ?_⟩
    · obtain ⟨t, follows, home, entered, reason, endStage⟩ := finishVertical_heads
        (s := ((s.traverseMoved e).rest .holding).arrived v stage (Entry.markDry depth (arrivalEntry i v stage)) s.run.flags)
        rfl rfl top current rfl last away
      have stage' : t.gauging.run.endStage = some stage := endStage.trans (by
        rw [show (((s.traverseMoved e).rest .holding).arrived v stage (Entry.markDry depth (arrivalEntry i v stage))
          s.run.flags).stage.record.stage = some stage from present]
        rfl)
      exact ⟨t, arrives (by omega) (finishes ▸ follows), entered, home, reason, stage'⟩
    · obtain ⟨t, goes, onWay, entered⟩ := finishVertical_departs
        (s := ((s.traverseMoved e).rest .holding).arrived v stage (Entry.markDry depth (arrivalEntry i v stage)) s.run.flags)
        rfl rfl top current rfl underWay next vertical' short free
      exact ⟨t, arrives (k := 0) (by omega) (.of_going 0 (finishes.trans goes)), onWay, entered⟩
  case stowed =>
    intro run
    have top := withContact_asserted (c := .top) asserts
    have stows : ∀ {k : Nat} {t : State}, k ≤ 7 → Follows k (finishVertical ((s.withContact .top level).rest .holding)) t →
        exec (.contactChange .top level) s = .next t := fun few follows =>
      contactChange_top_stowed running underWay raising step change top few follows
    refine ⟨fun last => ?_, fun j w next vertical short => ?_⟩
    · obtain ⟨t, follows, home, entered, reason, endStage⟩ := finishVertical_heads
        (s := (s.withContact .top level).rest .holding) rfl rfl top current results last away
      rw [← results] at entered
      exact ⟨t, stows (by omega) follows, entered, home, reason, endStage⟩
    · obtain ⟨t, goes, onWay, entered⟩ := finishVertical_departs
        (s := (s.withContact .top level).rest .holding) rfl rfl top current results underWay next vertical short free
      rw [← results] at entered
      exact ⟨t, stows (k := 0) (by omega) (.of_going 0 goes), onWay, entered⟩

end

section
/-! The end of a lowering of a run (R87 to R89, R102, R125, R126): the depth sounded and the bed that the table takes, the
first point placed, the vertical found Dry, and the dwell of a surface lowering. -/

namespace Sys2Proof.Machine

/-! ### What follows a lowering (R126 to R128) -/

/-- R128: the weight is on its way up to be stowed. -/
def Stowed (t : State) : Prop :=
  t.gauging.run.step = some .stow ∧ t.cable.activity = .moving .raiseToTop ∧ t.cable.state = .raising ∧
  t.cable.hoist.start = some .up

/-- R127: the first point of a plan, at a fraction of a depth used, for a weight at some depth. -/
def Placed (s : State) (plan : MeasurePlan) (t : State) (depth used : Int) : Prop :=
  let point := roundHalfUp (used * if plan = .single then 6 else 8) 10
  (point < depth → t.gauging.run.step = some .place ∧ t.cable.activity = .moving (.raiseTo point) ∧
    t.cable.state = .raising ∧ t.cable.hoist.start = some .up) ∧
  (depth ≤ point → t.gauging.run.step = some .dwell ∧ t.cable.state = .holding ∧ t.gauging.dwell =
    some { length := (s.settings.read .dwell).toNat, elapsed := 0, pulses := 0, surface := false })

/-- R126: the dwell of a surface lowering has begun. -/
def DwellsAtSurface (s t : State) : Prop :=
  t.gauging.run.step = some .dwell ∧ t.gauging.dwell =
    some { length := (s.settings.read .dwell).toNat, elapsed := 0, pulses := 0, surface := true }

/-- The section, the results and the flags are those of a state. -/
def KeepsRecords (s t : State) : Prop :=
  t.verticals = s.verticals ∧ t.gauging.run.results = s.gauging.run.results ∧ t.gauging.run.flags = s.gauging.run.flags

section
variable {s : State} {es : List Entry} {x : Entry}

theorem beginDwell_surface (s : State) : ∃ t, beginDwell true s = going t ∧ KeepsRecords s t ∧ DwellsAtSurface s t :=
  ⟨_, rfl, ⟨rfl, rfl, rfl⟩, rfl, rfl⟩

theorem takeResult_placed (running : s.run.state = .running) (step : s.run.step = some .place) :
    takeResult .reached s = beginDwell false s := by
  unfold takeResult
  rw [running, step]

variable (holding : s.cable.state = .holding) (idle : s.cable.activity = .idle) (released : s.asserted .top = false)
include holding idle released

theorem stow_stows : ∃ t, stow s = going t ∧ KeepsRecords s t ∧ Stowed t :=
  ⟨_, stow_raises holding idle released, ⟨rfl, rfl, rfl⟩, rfl, rfl, rfl, rfl⟩

/-- R125, R126: the vertical found Dry. -/
theorem stowDry_stows (results : s.gauging.run.results = es ++ [x]) : ∃ t, stowDry s = going t ∧
    t.verticals = s.verticals ∧
    t.gauging.run.results = es ++ [{ x with depthUsed := some s.gauging.arrivalDepth, mean := some 0, dry := true }] ∧
    Stowed t := by
  unfold stowDry
  rw [updateEntry_last _ results]
  obtain ⟨t, stows, ⟨verticals, entered, -⟩, stowed⟩ := stow_stows (s := s.setRun { s.run with
    results := es ++ [Entry.markDry s.gauging.arrivalDepth x] }) holding idle released
  exact ⟨t, stows, verticals, entered, stowed⟩

/-- R127: the first point is asked for, and where the weight is not below it the dwell begins. -/
theorem placeNext_places {i : Nat} {v : Vertical} {used : Int} (running : s.run.state = .running)
    (current : s.gauging.run.current = some i) (vertical : s.verticals[i]? = some v)
    (results : s.gauging.run.results = es ++ [x]) (points : x.points = []) (depth : x.depthUsed = some used) :
    ∃ t, Follows 1 (placeNext s) t ∧ KeepsRecords s t ∧ (v.plan ≠ .surfaceOnly → Placed s v.plan t s.depth used) := by
  by_cases plan : v.plan = .surfaceOnly
  · have stows : placeNext s = stow s := by
      unfold placeNext
      rw [entry_last results, vertical_current current vertical]
      dsimp only
      rw [points, plan]
      rfl
    obtain ⟨t, raises, keeps, -⟩ := stow_stows holding idle released
    exact ⟨t, .of_going 1 (stows.trans raises), keeps, fun other => absurd plan other⟩
  · have next : v.plan.fractions[x.points.length]? = some (if v.plan = .single then 6 else 8) := by
      rw [points]
      cases h : v.plan with
      | surfaceOnly => exact absurd h plan
      | single => rfl
      | twoPoint => rfl
      | threePoint => rfl
    have asks := placeNext_asks results current vertical next depth
    by_cases below : pointDepth used (if v.plan = .single then 6 else 8) < s.depth
    · refine ⟨_, .of_going 1 (asks.trans (takeRaiseTo_raises (s := s.setStep .place) holding idle below)),
        ⟨rfl, rfl, rfl⟩, fun _ => ⟨fun _ => ⟨rfl, rfl, rfl, rfl⟩, fun above => absurd below (not_lt.mpr above)⟩⟩
    · rw [asks, ask, takeRaiseTo_reached (s := s.setStep .place) holding idle (not_lt.mp below)]
      exact ⟨_, .result (takeResult_placed (s := State.rest _ .holding) running rfl) (.going 0 _), ⟨rfl, rfl, rfl⟩,
        fun _ => ⟨fun above => absurd above below, fun _ => ⟨rfl, rfl, rfl⟩⟩⟩

end

/-! ### The depth sounded (R87 to R89, R125) -/

/-- R125: the entry with the depth sounded. -/
def Entry.soundedAt (depth : Int) (updated : Bool) (x : Entry) : Entry :=
  { x with soundedDepth := some depth, depthUsed := some depth, bedUpdated := updated }

/-- R89, R125: the unit with a section and the entry of a sounding. -/
def State.bedFound (s : State) (vs : List Vertical) (updated : Bool) (results : List Entry) : State :=
  (s.setVerticals vs).setRun { s.run with
    results := results, flags := { s.run.flags with bedChanged := s.run.flags.bedChanged || updated } }

section
variable {s : State} {i : Nat} {v : Vertical} {es : List Entry} {x : Entry} {depth stage : Int}

theorem takeSounding_good (quality : s.stage.record.quality = .good) (present : s.stage.record.stage = some stage)
    (vertical : s.verticals[i]? = some v) : takeSounding i depth s =
      (s.setVerticals (s.verticals.set i (v.sound (s.setting .bedTolerance) s.clock (soundedBed stage depth)).1),
        (v.sound (s.setting .bedTolerance) s.clock (soundedBed stage depth)).2) := by
  unfold takeSounding
  rw [quality, present, vertical]

/-- R88, R89: the vertical as a sounding that gives a bed leaves it. -/
def Vertical.soundedBy (v : Vertical) (tolerance : Int) (clock : Word) (bed : Int) : Vertical :=
  if tolerance < ((bed - v.bed).natAbs : Int) then { v with bed := bed, source := .sounded, soundedTime := some clock }
  else { v with soundedTime := some clock }

theorem soundedBy_plan (v : Vertical) (tolerance : Int) (clock : Word) (bed : Int) :
    (v.soundedBy tolerance clock bed).plan = v.plan := by
  unfold Vertical.soundedBy
  split <;> rfl

/-- R88, R89: a bed further off than the tolerance is replaced. -/
theorem sound_eq (v : Vertical) (tolerance : Int) (clock : Word) (bed : Int) : v.sound tolerance clock bed =
    (v.soundedBy tolerance clock bed,
      if tolerance < ((bed - v.bed).natAbs : Int) then .updated else .kept) := by
  unfold Vertical.sound Vertical.soundedBy
  split <;> rfl

/-- R87 to R89: what a sounding makes of the section, and whether it updates the bed. -/
theorem takeSounding_table (vertical : s.verticals[i]? = some v) (depth : Int) :
    ∃ vs report updated w, takeSounding i depth s = (s.setVerticals vs, report) ∧ (report == .updated) = updated ∧
      vs[i]? = some w ∧ w.plan = v.plan ∧
      (∀ stage, s.stage.record.quality = .good → s.stage.record.stage = some stage →
        vs = s.verticals.set i (v.soundedBy (s.setting .bedTolerance) s.clock (soundedBed stage depth)) ∧
        updated = decide (s.setting .bedTolerance < ((soundedBed stage depth - v.bed).natAbs : Int))) ∧
      (s.stage.record.quality ≠ .good → vs = s.verticals ∧ updated = false) := by
  by_cases taken : s.stage.record.quality = .good ∧ ∃ stage, s.stage.record.stage = some stage
  · obtain ⟨good, stage, present⟩ := taken
    have inside : i < s.verticals.length := (List.getElem?_eq_some_iff.mp vertical).1
    have table := takeSounding_good (depth := depth) good present vertical
    rw [sound_eq] at table
    refine ⟨_, _, decide (s.setting .bedTolerance < ((soundedBed stage depth - v.bed).natAbs : Int)),
      v.soundedBy (s.setting .bedTolerance) s.clock (soundedBed stage depth), table, ?_,
      List.getElem?_set_self inside, soundedBy_plan _ _ _ _, fun stage' _ present' => ?_, fun other => absurd good other⟩
    · by_cases off : s.setting .bedTolerance < ((soundedBed stage depth - v.bed).natAbs : Int)
      · dsimp only
        rw [if_pos off, decide_eq_true off]
        rfl
      · dsimp only
        rw [if_neg off, decide_eq_false off]
        rfl
    · cases present.symm.trans present'
      exact ⟨rfl, rfl⟩
  · have table : takeSounding i depth s = (s, .notTaken) := by
      unfold takeSounding
      split
      · next good present _ => exact absurd ⟨good, _, present⟩ taken
      · rfl
    exact ⟨s.verticals, .notTaken, false, v, table, rfl, vertical, rfl,
      fun stage good present => absurd ⟨good, stage, present⟩ taken, fun _ => ⟨rfl, rfl⟩⟩

/-- R125: a depth sounded is recorded, and the vertical is Dry or has its first point placed. -/
theorem bottomFound_eq {vs : List Vertical} {report : SoundingReport} {updated : Bool}
    (current : s.gauging.run.current = some i) (results : s.gauging.run.results = es ++ [x])
    (table : takeSounding i depth s = (s.setVerticals vs, report)) (isUpdated : (report == .updated) = updated) :
    bottomFound depth s =
      if depth < s.settings.read .minimumDepth then
        stow (s.bedFound vs updated (es ++ [Entry.markDry depth (x.soundedAt depth updated)]))
      else placeNext (s.bedFound vs updated (es ++ [x.soundedAt depth updated])) := by
  have entered : (s.setVerticals vs).updateEntry (fun e => e.soundedAt depth updated) =
      (s.setVerticals vs).setRun { s.run with results := es ++ [x.soundedAt depth updated] } :=
    updateEntry_last (s := s.setVerticals vs) _ results
  have dried : (s.bedFound vs updated (es ++ [x.soundedAt depth updated])).updateEntry (Entry.markDry depth) =
      s.bedFound vs updated (es ++ [Entry.markDry depth (x.soundedAt depth updated)]) :=
    updateEntry_last (s := s.bedFound vs updated (es ++ [x.soundedAt depth updated])) _ rfl
  have index : s.run.current.getD 0 = i := by
    unfold State.run
    rw [current]
    rfl
  rw [← dried]
  unfold bottomFound
  dsimp only
  rw [index, table, isUpdated]
  dsimp only
  unfold Entry.soundedAt at entered
  rw [entered]
  rfl

/-- What O52 says of a sounding that has found the bottom. -/
def BottomFound (s : State) (vs : List Vertical) (updated : Bool) (plan : MeasurePlan) (es : List Entry) (x : Entry)
    (depth : Int) (t : State) : Prop :=
  t.verticals = vs ∧
  t.gauging.run.results = es ++ [if depth < s.settings.read .minimumDepth
    then { x.soundedAt depth updated with mean := some 0, dry := true } else x.soundedAt depth updated] ∧
  t.gauging.run.flags = { s.gauging.run.flags with bedChanged := s.gauging.run.flags.bedChanged || updated } ∧
  (depth < s.settings.read .minimumDepth → Stowed t) ∧
  (s.settings.read .minimumDepth ≤ depth → plan ≠ .surfaceOnly → Placed s plan t s.depth depth)

theorem bottomFound_follows {vs : List Vertical} {report : SoundingReport} {updated : Bool}
    (holding : s.cable.state = .holding) (idle : s.cable.activity = .idle) (released : s.asserted .top = false)
    (running : s.run.state = .running) (current : s.gauging.run.current = some i)
    (results : s.gauging.run.results = es ++ [x]) (points : x.points = [])
    (table : takeSounding i depth s = (s.setVerticals vs, report)) (isUpdated : (report == .updated) = updated)
    (vertical : vs[i]? = some v) :
    ∃ t, Follows 1 (bottomFound depth s) t ∧ BottomFound s vs updated v.plan es x depth t := by
  rw [bottomFound_eq current results table isUpdated]
  unfold BottomFound
  by_cases shallow : depth < s.settings.read .minimumDepth
  · rw [if_pos shallow, if_pos shallow]
    obtain ⟨t, stows, ⟨verticals, entered, flags⟩, stowed⟩ := stow_stows
      (s := s.bedFound vs updated (es ++ [Entry.markDry depth (x.soundedAt depth updated)])) holding idle released
    exact ⟨t, .of_going 1 stows, verticals, entered, flags, fun _ => stowed, fun deep => absurd shallow (not_lt.mpr deep)⟩
  · rw [if_neg shallow, if_neg shallow]
    obtain ⟨t, follows, ⟨verticals, entered, flags⟩, placed⟩ := placeNext_places
      (s := s.bedFound vs updated (es ++ [x.soundedAt depth updated])) holding idle released running current vertical rfl
      points rfl
    exact ⟨t, follows, verticals, entered, flags, fun h => absurd h shallow, fun _ => placed⟩

end

/-! ### The line events that end a lowering (R102) -/

section
variable {s t : State} {k i : Nat} {target : Int} {stop wet : Bool} {start : Word} (running : s.resetHeld = false)
  (underWay : s.gauging.run.state = .running) (lowering : s.cable.activity = .moving (.lowerTo target stop start wet))
include running underWay lowering

theorem contactChange_bottom_lowered {level : Level} (change : level ≠ s.cable.contacts.bottom)
    (bottom : (s.withContact .bottom level).asserted .bottom = true) (few : k ≤ 7)
    (follows : Follows k (lowerResult (.bottomContact s.depth wet) stop ((s.withContact .bottom level).rest .holding)) t) :
    exec (.contactChange .bottom level) s = .next t := by
  have ends : contactChange .bottom level s =
      endMovement (s.withContact .bottom level) .holding (.lowered (.bottomContact s.depth wet) stop) :=
    (contactChange_bottom change).trans (contactTests_bottom (s := s.withContact .bottom level) lowering bottom)
  have delivered : deliver (endMovement (s.withContact .bottom level) .holding
      (.lowered (.bottomContact s.depth wet) stop)) = t :=
    (Follows.result (takeResult_lowered (s := (s.withContact .bottom level).rest .holding) underWay _ _)
      follows).deliver_eq (by omega)
  exact (unlessHeld_running _ running).trans (congrArg _ ((congrArg deliver ends).trans delivered))

theorem depthCountChange_lowered {e : QuadratureEdge} {how : LowerEnd} (single : e.changed ≠ .both)
    (released : s.asserted .bottom = false)
    (ended : wet = true ∧ target ≤ (s.hoistMoved e).depth ∧ how = .reached ∨
      wet = false ∧ s.searchCounts ≤ ((s.hoistMoved e).cable.depthCount - start).toInt ∧ how = .noSurface) (few : k ≤ 7)
    (follows : Follows k (lowerResult how stop ((s.hoistMoved e).rest .holding)) t) :
    exec (.depthCountChange e) s = .next t := by
  have ends : depthCountChange e s = endMovement (s.hoistMoved e) .holding (.lowered how stop) := by
    refine (depthCountChange_moves single).trans ?_
    rcases ended with ⟨rfl, reached, rfl⟩ | ⟨rfl, searched, rfl⟩
    · exact (hoistTests_wet (s := s.hoistMoved e) lowering released).trans (if_pos reached)
    · exact (hoistTests_dry (s := s.hoistMoved e) lowering released).trans (if_pos searched)
  have delivered : deliver (endMovement (s.hoistMoved e) .holding (.lowered how stop)) = t :=
    (Follows.result (takeResult_lowered (s := (s.hoistMoved e).rest .holding) underWay _ _) follows).deliver_eq (by omega)
  exact (unlessHeld_running _ running).trans (congrArg _ ((congrArg deliver ends).trans delivered))

end

end Sys2Proof.Machine

open Sys2Proof Sys2Proof.Machine

/-- Settles O52: the sounding that finds the bottom with and without a Good stage, and the other ends of a lowering. -/
theorem soundingsAndSurfaceLoweringsEnd : Obligations.SoundingsAndSurfaceLoweringsEnd := by
  intro target stop wet start i v es x s running lowering underWay current vertical results points released run
    record depthOf stowed placed dry
  refine ⟨fun level change asserts => ?bottom, fun e single noBottom => ?count⟩
  case bottom =>
    have bottom := withContact_asserted (c := .bottom) asserts
    have lowered : ∀ {k : Nat} {t : State}, k ≤ 7 → Follows k
        (lowerResult (.bottomContact s.depth wet) stop ((s.withContact .bottom level).rest .holding)) t →
        exec (.contactChange .bottom level) s = .next t := fun few follows =>
      contactChange_bottom_lowered running underWay lowering change bottom few follows
    cases wet with
    | false =>
      obtain ⟨t, stows, verticals, entered, up⟩ :=
        stowDry_stows (s := (s.withContact .bottom level).rest .holding) rfl rfl released results
      have ends : lowerResult (.bottomContact s.depth false) stop ((s.withContact .bottom level).rest .holding) =
          stowDry ((s.withContact .bottom level).rest .holding) := by cases stop <;> rfl
      exact ⟨t, lowered (k := 0) (by omega) (.of_going 0 (ends.trans stows)), (fun _ isWet => nomatch isWet),
        fun _ => ⟨verticals, entered, up⟩, (fun _ isWet => nomatch isWet)⟩
    | true =>
      cases stop with
      | false =>
        obtain ⟨t, begins, ⟨verticals, kept, -⟩, step, dwell⟩ :=
          beginDwell_surface ((s.withContact .bottom level).rest .holding)
        exact ⟨t, lowered (k := 0) (by omega) (.of_going 0 begins), (fun stops => nomatch stops), (fun isDry => nomatch isDry),
          fun _ _ => ⟨verticals, kept, step, dwell⟩⟩
      | true =>
        obtain ⟨vs, report, updated, w, table, isUpdated, vertical', plan, good, other⟩ :=
          takeSounding_table (s := (s.withContact .bottom level).rest .holding) vertical s.depth
        obtain ⟨t, follows, verticals, entered, flags, shallow, deep⟩ := bottomFound_follows
          (s := (s.withContact .bottom level).rest .holding) rfl rfl released underWay current results points table
          isUpdated vertical'
        rw [plan] at deep
        refine ⟨t, lowered (by omega) follows, fun _ _ => ?_, (fun isDry => nomatch isDry), (fun stops => nomatch stops)⟩
        refine ⟨fun stage quality present => ?_, fun quality => ?_, shallow, deep⟩
        · intro bed off
          obtain ⟨rfl, rfl⟩ := good stage quality present
          exact ⟨verticals, entered, flags⟩
        · obtain ⟨rfl, rfl⟩ := other quality
          rw [Bool.or_false] at flags
          exact ⟨verticals, entered, flags⟩
  case count =>
    intro count
    have lowered : ∀ {k : Nat} {t : State} {how : LowerEnd},
        (wet = true ∧ target ≤ (s.hoistMoved e).depth ∧ how = .reached ∨
          wet = false ∧ s.searchCounts ≤ ((s.hoistMoved e).cable.depthCount - start).toInt ∧ how = .noSurface) → k ≤ 7 →
        Follows k (lowerResult how stop ((s.hoistMoved e).rest .holding)) t → exec (.depthCountChange e) s = .next t :=
      fun ended few follows => depthCountChange_lowered running underWay lowering single noBottom ended few follows
    refine ⟨fun isWet reached => ?_, fun isDry searched => ?_⟩
    · cases stop with
      | false =>
        obtain ⟨t, begins, ⟨verticals, kept, -⟩, step, dwell⟩ := beginDwell_surface ((s.hoistMoved e).rest .holding)
        exact ⟨t, lowered (.inl ⟨isWet, reached, rfl⟩) (k := 0) (by omega) (.of_going 0 begins), verticals,
          (fun stops => nomatch stops), fun _ => ⟨kept, step, dwell⟩⟩
      | true =>
        have entered := updateEntry_last (s := (s.hoistMoved e).rest .holding)
          (fun e => { e with noBottom := true, depthUsed := some s.gauging.arrivalDepth }) results
        obtain ⟨t, follows, ⟨verticals, kept, -⟩, first⟩ := placeNext_places
          (s := ((s.hoistMoved e).rest .holding).setRun { ((s.hoistMoved e).rest .holding).run with
            results := es ++ [{ x with noBottom := true, depthUsed := some s.gauging.arrivalDepth }] })
          rfl rfl released underWay current vertical rfl points rfl
        rw [← entered] at follows
        exact ⟨t, lowered (.inl ⟨isWet, reached, rfl⟩) (by omega) follows, verticals, fun _ => ⟨kept, first⟩,
          (fun stops => nomatch stops)⟩
    · obtain ⟨t, stows, verticals, entered, up⟩ :=
        stowDry_stows (s := (s.hoistMoved e).rest .holding) rfl rfl released results
      have ends : lowerResult .noSurface stop ((s.hoistMoved e).rest .holding) = stowDry ((s.hoistMoved e).rest .holding) := by
        cases stop <;> rfl
      exact ⟨t, lowered (.inr ⟨isDry, searched, rfl⟩) (k := 0) (by omega) (.of_going 0 (ends.trans stows)), verticals,
        entered, up⟩

end

section
/-! The reports (R17, R24, R70, R137, R147, R181, R182, R187, R188): their lengths, what stands where in them, and the
parameters they are asked with. -/

namespace Sys2Proof.Machine

/-! ### Lengths -/

@[simp] theorem be1_length (v : Int) : (be1 v).length = 1 := rfl

@[simp] theorem be2_length (v : Int) : (be2 v).length = 2 := rfl

@[simp] theorem be4_length (v : Int) : (be4 v).length = 4 := rfl

theorem be1_nat (n : Nat) : be1 (n : Int) = [BitVec.ofNat 8 n] := by
  unfold be1
  rw [BitVec.ofInt_natCast]

@[simp] theorem LookupResult.bytes_length (r : LookupResult) : r.bytes.length = 19 := rfl

@[simp] theorem StageRecord.bytes_length (r : StageRecord) : r.bytes.length = 19 := rfl

@[simp] theorem ratedBytes_length (s : State) : s.ratedBytes.length = 20 := by
  unfold State.ratedBytes
  split <;> rfl

@[simp] theorem Adoption.bytes_length (a : Adoption) : a.bytes.length = 6 := by
  unfold Adoption.bytes
  split <;> rfl

@[simp] theorem faultBytes_length (f : Option FaultRecord) : (faultBytes f).length = 13 := by
  rcases f with _ | ⟨kind, _, _, _, _⟩
  · rfl
  · rcases kind with drive | _
    · cases drive <;> rfl
    · rfl

@[simp] theorem carriageBytes_length (s : State) : s.carriageBytes.length = 34 := by
  unfold State.carriageBytes
  simp only [List.length_append, be1_length, be2_length, be4_length, beWord_length, faultBytes_length]

@[simp] theorem RunRecord.summary_length (r : RunRecord) : r.summary.length = 8 := rfl

@[simp] theorem WarningUnit.report_length (w : WarningUnit) : w.report.length = 17 := rfl

theorem summary_length (s : State) : s.summary.length = 111 := by
  unfold State.summary
  simp only [List.length_append, be1_length, be2_length, beWord_length, StageRecord.bytes_length, ratedBytes_length,
    Adoption.bytes_length, carriageBytes_length, RunRecord.summary_length, WarningUnit.report_length]

theorem Channel.bytes_length (i : ChannelNumber) (c : Channel) : (c.bytes i).length = 38 := by
  unfold Channel.bytes
  simp only [List.length_append, be1_length, be4_length, beWord_length]

@[simp] theorem VoteRecord.bytes_length (v : VoteRecord) : v.bytes.length = 13 := rfl

theorem bandBytes_length (k : Nat) (b : Option Band) : (bandBytes k b).length = 21 := by
  rcases b with _ | ⟨_, _, _, _, _, origin, _⟩
  · rfl
  · cases origin <;> rfl

theorem ruleBytes_length (k : Nat) (r : Option Rule) : (ruleBytes k r).length = 32 := by
  cases r with
  | none => rfl
  | some r =>
    unfold ruleBytes
    simp only [List.length_append, be1_length, be4_length, beWord_length]

@[simp] theorem StartCondition.bytes_length (c : StartCondition) : c.bytes.length = 9 := by
  cases c <;> rfl

theorem RunRecord.bytes_length (r : RunRecord) : r.bytes.length = 56 := by
  unfold RunRecord.bytes
  simp only [List.length_append, be1_length, be2_length, be4_length, beWord_length, StartCondition.bytes_length]

/-! ### Segments -/

/-- A part of a list, told by what stands before it. -/
theorem segment {α : Type} {l pre part post : List α} {n m : Nat} (e : l = pre ++ (part ++ post)) (before : pre.length = n)
    (within : part.length = m) : (l.drop n).take m = part := by
  subst e before within
  rw [List.drop_left, List.take_left]

theorem flatMap_length_const {α β : Type} {f : α → List β} {n : Nat} {l : List α} (h : ∀ a ∈ l, (f a).length = n) :
    (l.flatMap f).length = n * l.length := by
  induction l with
  | nil => rfl
  | cons a l ih =>
    rw [List.flatMap_cons, List.length_append, h a List.mem_cons_self, ih fun b hb => h b (List.mem_cons_of_mem a hb),
      List.length_cons, Nat.mul_succ, Nat.add_comm]

/-- The part that one element of a list gives, where every element gives as many. -/
theorem segment_flatMap {α β : Type} {f : α → List β} {n k : Nat} {l : List α} {a : α} (post : List β)
    (h : ∀ a, (f a).length = n) (present : l[k]? = some a) : (((l.flatMap f) ++ post).drop (n * k)).take n = f a := by
  induction l generalizing k with
  | nil => cases present
  | cons b l ih =>
    rw [List.flatMap_cons, List.append_assoc]
    cases k with
    | zero =>
      cases present
      exact segment (pre := []) rfl rfl (h _)
    | succ k =>
      have skip : n * (k + 1) = (f b).length + n * k := by rw [h, Nat.mul_succ, Nat.add_comm]
      rw [skip, ← List.drop_drop, List.drop_left]
      exact ih present

/-! ### READ SETTINGS (R181) -/

theorem Setting.id_le (x : Setting) : x.id ≤ 35 := by cases x <;> decide

theorem Setting.ofId_none {n : Int} (h : n < 1 ∨ 35 < n) : Setting.ofId n = none := by
  cases e : Setting.ofId n with
  | none => rfl
  | some x =>
    have id := Setting.id_of_ofId e
    have least := Setting.id_pos x
    have most := Setting.id_le x
    omega

theorem Setting.toInt_id (x : Setting) : (BitVec.ofNat 32 x.id).toInt = x.id :=
  toInt_ofNat_small (Nat.lt_of_le_of_lt (Setting.id_le x) (by decide))

theorem pairBytes_id (x : Setting) (v : Int) : pairBytes x.id v = BitVec.ofNat 8 x.id :: be4 v := by
  unfold pairBytes
  rw [be1_nat]
  rfl

/-- R179, R181: the first that fails a test is reported. -/
theorem firstFailing_at {α : Type} {bad : α → Bool} {l : List α} {k i : Nat} {p : α} (present : l[k]? = some p)
    (fails : bad p = true) (before : ∀ q ∈ l.take k, bad q = false) : firstFailing bad i l = some (i + k) := by
  induction l generalizing k i with
  | nil => cases present
  | cons a l ih =>
    unfold firstFailing
    cases k with
    | zero =>
      cases present
      rw [if_pos fails]
      rfl
    | succ k =>
      rw [List.take_succ_cons] at before
      rw [if_neg (by rw [before a List.mem_cons_self]; decide),
        ih (k := k) present fun q hq => before q (List.mem_cons_of_mem a hq)]
      congr 1
      omega

section
variable {ws : List Word} {s : State} (asked : ws ≠ []) (few : ws.length ≤ 16)
include asked few

theorem readSettings_bad {k : Nat} (h : firstFailing (fun w : Word => (Setting.ofId w.toInt).isNone) 0 ws = some k) :
    readSettings (paramBytes ws) s = badField s k := by
  obtain ⟨w, rest, rfl⟩ := List.exists_cons_of_ne_nil asked
  unfold readSettings
  rw [readWords_paramBytes]
  dsimp only
  rw [if_neg (not_lt.mpr few), h]

theorem readSettings_known (h : firstFailing (fun w : Word => (Setting.ofId w.toInt).isNone) 0 ws = none) :
    readSettings (paramBytes ws) s =
      done s (settingBytes s.settings (ws.filterMap fun w => Setting.ofId w.toInt)) := by
  obtain ⟨w, rest, rfl⟩ := List.exists_cons_of_ne_nil asked
  unfold readSettings
  rw [readWords_paramBytes]
  dsimp only
  rw [if_neg (not_lt.mpr few), h]

end

theorem settingBytes_eq (t : Settings) (xs : List Setting) :
    settingBytes t xs = xs.flatMap fun x => BitVec.ofNat 8 x.id :: be4 (t.read x) := by
  unfold settingBytes
  exact List.flatMap_congr fun x _ => pairBytes_id x _

theorem ofId_ids (xs : List Setting) :
    ((xs.map fun x => BitVec.ofNat 32 x.id).filterMap fun w => Setting.ofId w.toInt) = xs := by
  rw [List.filterMap_map]
  refine (List.filterMap_congr fun x _ => ?_).trans (List.filterMap_some (l := xs))
  show Setting.ofId (BitVec.ofNat 32 x.id).toInt = some x
  rw [Setting.toInt_id, Setting.ofId_id]

/-- A setting's identifier passes the test of READ SETTINGS. -/
theorem known_id {xs : List Setting} {w : Word} (h : w ∈ xs.map fun x => BitVec.ofNat 32 x.id) :
    (Setting.ofId w.toInt).isNone = false := by
  obtain ⟨x, -, rfl⟩ := List.mem_map.mp h
  rw [Setting.toInt_id, Setting.ofId_id]
  rfl

/-! ### READ CHANNEL, READ RUN, READ RULE (R17, R137, R147) -/

theorem readChannel_at (i : ChannelNumber) (s : State) :
    readChannel (beWord (BitVec.ofNat 32 i.val)) s = done s ((s.channel i).bytes i) := by
  unfold readChannel
  rw [readWords_beWord]
  dsimp only
  rw [channelOf_ofNat]

theorem readChannel_outside {w : Word} (s : State) (h : 3 < w.toNat) : readChannel (beWord w) s = badField s 0 := by
  unfold readChannel
  rw [readWords_beWord]
  dsimp only
  rw [channelOf_none h]

theorem readRun_at {f n : Nat} (s : State) (hf : f < 32) (hn : n < 5) :
    readRun (paramBytes [BitVec.ofNat 32 f, BitVec.ofNat 32 n]) s =
      done s (s.run.bytes ++ be1 f ++ (List.range n).flatMap fun k =>
        match s.run.results[f + k]? with
        | some e => e.bytes
        | none => be1 0) := by
  unfold readRun
  rw [readWords_paramBytes]
  dsimp only
  rw [slotOf_ofNat hf (by decide), slotOf_ofNat hn (by decide)]
  <;> rfl

theorem readRun_first {first number : Word} (s : State) (h : slotOf 32 first = none) :
    readRun (paramBytes [first, number]) s = badField s 0 := by
  unfold readRun
  rw [readWords_paramBytes]
  dsimp only
  rw [h]

theorem readRun_number {first number : Word} {f : Nat} (s : State) (h : slotOf 32 first = some f)
    (h' : slotOf 5 number = none) : readRun (paramBytes [first, number]) s = badField s 1 := by
  unfold readRun
  rw [readWords_paramBytes]
  dsimp only
  rw [h, h']

theorem readRule_words (w : Word) (s : State) :
    readRule (beWord w) s = onRuleSlot (beWord w) s fun k rule => done s (ruleBytes k rule) := rfl

/-! ### The parts of the long reports -/

theorem voteReport_length (b : StageBlock) : b.voteReport.length = 58 := by
  have votes : (b.votes.toList.flatMap VoteRecord.bytes).length = 52 := by
    rw [flatMap_length_const (n := 13) fun v _ => v.bytes_length, Vector.length_toList]
    rfl
  have setup : ∀ u : VoteSetup, u.bytes.length = 2 := fun _ => rfl
  unfold StageBlock.voteReport
  rw [List.length_append, List.length_append, List.length_append, votes, setup]
  cases b.pendingSetup <;> rfl

theorem voteSetup_bytes (u : VoteSetup) : u.bytes = [BitVec.ofNat 8 u.primary.val, u.checks.setWidth 8] := by
  unfold VoteSetup.bytes
  rw [be1_nat, be1_nat]
  exact congrArg (fun b => [BitVec.ofNat 8 u.primary.val, b]) (BitVec.ofNat_toNat 8 _)

theorem voteReport_opens (b : StageBlock) :
    b.voteReport.take 2 = [BitVec.ofNat 8 b.setup.primary.val, b.setup.checks.setWidth 8] := by
  unfold StageBlock.voteReport
  rw [voteSetup_bytes]
  rfl

theorem shiftReport_length (s : State) : (s.rating.bands.slots.flatMap fun p => bandBytes p.1 p.2).length = 168 := by
  rw [flatMap_length_const (n := 21) fun p _ => bandBytes_length p.1 p.2]
  unfold ShiftTable.slots
  rw [List.length_map, List.length_finRange]
  rfl

theorem shiftSlots_at (t : ShiftTable) (k : Fin Config.shiftBands) : t.slots[k.val]? = some (k.val, t.get k) := by
  unfold ShiftTable.slots
  rw [List.getElem?_map, List.getElem?_eq_getElem (by rw [List.length_finRange]; exact k.isLt), List.getElem_finRange]
  rfl

theorem ruleSummary_length (w : WarningUnit) : (ruleSummary w).length = 33 := by
  unfold ruleSummary
  rw [List.length_append]
  refine (congrArg (· + 1) (flatMap_length_const (n := 2) fun p _ => ?_)).trans ?_
  · rcases p with ⟨_, _ | r⟩
    · rfl
    · rfl
  · unfold RuleTable.slots
    rw [List.length_map, List.length_finRange]
    rfl

/-- A report that closes with a level. -/
theorem getLast?_be1 (l : List Byte) (n : Nat) : (l ++ be1 (n : Int)).getLast? = some (BitVec.ofNat 8 n) := by
  rw [be1_nat, List.getLast?_append_of_ne_nil _ (List.cons_ne_nil _ [])]
  rfl

section
variable (s : State)

/-- R182: the parts of the station report. -/
theorem summary_clock : s.summary.take 4 = beWord s.clock := by
  have e : s.summary = [] ++ (beWord s.clock ++ (s.stage.record.bytes ++ (s.ratedBytes ++
      (be2 s.rating.active.number.toNat ++ (s.rating.adoption.bytes ++ (s.carriageBytes ++ (s.run.summary ++
        (s.warning.report ++ be1 s.warning.level)))))))) := by
    simp only [State.summary, List.append_assoc, List.nil_append]
  exact segment e rfl rfl

theorem summary_stage : (s.summary.drop 4).take 19 = s.stage.record.bytes := by
  have e : s.summary = beWord s.clock ++ (s.stage.record.bytes ++ (s.ratedBytes ++
      (be2 s.rating.active.number.toNat ++ (s.rating.adoption.bytes ++ (s.carriageBytes ++ (s.run.summary ++
        (s.warning.report ++ be1 s.warning.level))))))) := by
    simp only [State.summary, List.append_assoc]
  exact segment e rfl rfl

theorem summary_rated : (s.summary.drop 23).take 20 = s.ratedBytes := by
  have e : s.summary = (beWord s.clock ++ s.stage.record.bytes) ++ (s.ratedBytes ++
      (be2 s.rating.active.number.toNat ++ (s.rating.adoption.bytes ++ (s.carriageBytes ++ (s.run.summary ++
        (s.warning.report ++ be1 s.warning.level)))))) := by
    simp only [State.summary, List.append_assoc]
  exact segment e rfl (ratedBytes_length s)

theorem summary_carriage : (s.summary.drop 51).take 34 = s.carriageBytes := by
  have e : s.summary = (beWord s.clock ++ s.stage.record.bytes ++ s.ratedBytes ++ be2 s.rating.active.number.toNat ++
      s.rating.adoption.bytes) ++ (s.carriageBytes ++ (s.run.summary ++ (s.warning.report ++ be1 s.warning.level))) := by
    simp only [State.summary, List.append_assoc]
  refine segment e ?_ (carriageBytes_length s)
  simp only [List.length_append, be2_length, beWord_length, StageRecord.bytes_length, ratedBytes_length,
    Adoption.bytes_length]

theorem summary_report : (s.summary.drop 93).take 17 = s.warning.report := by
  have e : s.summary = (beWord s.clock ++ s.stage.record.bytes ++ s.ratedBytes ++ be2 s.rating.active.number.toNat ++
      s.rating.adoption.bytes ++ s.carriageBytes ++ s.run.summary) ++ (s.warning.report ++ be1 s.warning.level) := by
    simp only [State.summary, List.append_assoc]
  refine segment e ?_ rfl
  simp only [List.length_append, be2_length, beWord_length, StageRecord.bytes_length, ratedBytes_length,
    Adoption.bytes_length, carriageBytes_length, RunRecord.summary_length]

theorem ratedBytes_some {s : State} {h : Int} (present : s.stage.record.stage = some h) :
    s.ratedBytes = 1 :: (forwardLookup s h).bytes := by
  unfold State.ratedBytes
  rw [present]
  rfl

theorem ratedBytes_none {s : State} (absent : s.stage.record.stage = none) : s.ratedBytes = List.replicate 20 0 := by
  unfold State.ratedBytes
  rw [absent]
  rfl

end

end Sys2Proof.Machine

open Sys2Proof Sys2Proof.Machine

/-- Settles O25: each report as its owner gives it, its length, and the parts that stand at known places. -/
theorem reportsHaveTheirLayouts : Obligations.ReportsHaveTheirLayouts := by
  intro s running heard empty pairs
  have l : Listens s := ⟨running, heard, empty⟩
  refine ⟨?all, by decide, fun xs named few => ?settings, fun xs bad rest few outside => ?badSetting, ?station, fun i => ?channel,
    fun channel outside => ?badChannel, ?vote, ?shifts, fun f n hf hn => ?run, RunRecord.bytes_length _,
    fun first number => ?badRun, fun slot outside => ?badRule, fun k => ?rule, ?rules⟩
  case all =>
    refine l.exec_done .readSettings (Nat.zero_le _) (show _ = done s (pairs Setting.all) from ?_)
    exact congrArg (done s) (settingBytes_eq _ _)
  case settings =>
    have asked : xs.map (fun x => BitVec.ofNat 32 x.id) ≠ [] := fun h => by
      rw [List.map_eq_nil_iff.mp h] at named
      cases named
    have known := (firstFailing_eq_none_iff (fun w : Word => (Setting.ofId w.toInt).isNone) 0
      (xs.map fun x => BitVec.ofNat 32 x.id)).mpr fun w hw => known_id hw
    have owned := readSettings_known (s := s) asked (by rw [List.length_map]; exact few) known
    rw [ofId_ids, settingBytes_eq] at owned
    exact l.exec_done .readSettings (by rw [paramBytes_length, List.length_map]; omega) owned
  case badSetting =>
    have length : (xs.map (fun x => BitVec.ofNat 32 x.id) ++ bad :: rest).length ≤ 16 := by
      rw [List.length_append, List.length_map, List.length_cons]
      omega
    have fails := firstFailing_at (bad := fun w : Word => (Setting.ofId w.toInt).isNone) (i := 0) (k := xs.length) (p := bad)
      (l := xs.map (fun x => BitVec.ofNat 32 x.id) ++ bad :: rest) (by simp) (by rw [Setting.ofId_none outside]; rfl)
      fun w hw => known_id (xs := xs) (by
        rwa [List.take_append_of_le_length (by simp), List.take_of_length_le (by simp)] at hw)
    rw [Nat.zero_add] at fails
    exact l.exec_badField .readSettings (by rw [paramBytes_length]; omega) (readSettings_bad (by simp) length fails)
  case station =>
    refine ⟨s.summary, l.exec_done .readStation (Nat.zero_le _) rfl, summary_length s, summary_clock s, summary_stage s,
      fun h present => (summary_rated s).trans (ratedBytes_some present),
      fun absent => (summary_rated s).trans (ratedBytes_none absent), summary_carriage s, summary_report s,
      getLast?_be1 _ _⟩
  case channel => exact ⟨_, l.exec_done .readChannel (by simp) (readChannel_at i s), Channel.bytes_length i _, rfl⟩
  case badChannel => exact l.exec_badField .readChannel (by simp) (readChannel_outside s outside)
  case vote => exact ⟨_, l.exec_done .setVote (Nat.zero_le _) rfl, voteReport_length _, voteReport_opens _⟩
  case shifts =>
    refine ⟨_, l.exec_done .readShifts (Nat.zero_le _) rfl, ?_, fun k => ?_⟩
    · rw [List.length_append, List.length_append, List.length_append, shiftReport_length]
      rfl
    · rw [List.append_assoc, List.append_assoc]
      exact segment_flatMap (a := (k.val, s.rating.bands.get k)) _ (fun p => bandBytes_length p.1 p.2) (shiftSlots_at _ k)
  case run =>
    have owned := readRun_at s hf hn
    rw [be1_nat] at owned
    exact l.exec_done .readRun (by simp) owned
  case badRun =>
    refine ⟨fun outside => ?_, fun least most outside => ?_⟩
    · exact l.exec_badField .readRun (by simp) (readRun_first s (slotOf_none (by omega)))
    · exact l.exec_badField .readRun (by simp) (readRun_number s (slotOf_some least (by omega)) (slotOf_none (by omega)))
  case badRule =>
    exact l.exec_badField .readRule (by simp) ((readRule_words slot s).trans (onRuleSlot_none s _ (slotOf_none outside)))
  case rule =>
    exact ⟨l.exec_done .readRule (by simp) ((readRule_words _ s).trans (onRuleSlot_at k s _)), ruleBytes_length _ _⟩
  case rules =>
    exact ⟨_, l.exec_done .readRule (Nat.zero_le _) rfl, ruleSummary_length _, getLast?_be1 _ _⟩

end

section
/-! The checks of WRITE SETTINGS (R179) on pairs of settings and values: which pair each check reports. -/

namespace Sys2Proof.Machine

/-! ### The pairs of a request -/

theorem pairsOf_flatMap (pairs : List (Word × Word)) :
    pairsOf (pairs.flatMap fun q => [q.1, q.2]) = some (pairs.map fun q => (q.1.toInt, q.2.toInt)) := by
  induction pairs with
  | nil => rfl
  | cons q pairs ih =>
    rw [List.flatMap_cons, List.map_cons, List.cons_append, List.cons_append, List.nil_append, pairsOf, ih]
    rfl

theorem pairWords_length (pairs : List (Word × Word)) :
    (paramBytes (pairs.flatMap fun q => [q.1, q.2])).length = 8 * pairs.length := by
  rw [paramBytes_length, flatMap_length_const (n := 2) fun q _ => rfl]
  omega

theorem settingPairs_words {pairs : List (Word × Word)} (least : 1 ≤ pairs.length) (most : pairs.length ≤ 8) :
    settingPairs (paramBytes (pairs.flatMap fun q => [q.1, q.2])) = some (pairs.map fun q => (q.1.toInt, q.2.toInt)) := by
  unfold settingPairs
  rw [readWords_paramBytes, Option.bind_some, pairsOf_flatMap]
  exact if_pos (by rw [List.length_map]; exact ⟨least, most⟩)

theorem settingPairs_none {bytes : List Byte} (h : bytes = [] ∨ 64 < bytes.length ∨ bytes.length % 8 ≠ 0) :
    settingPairs bytes = none := by
  cases e : settingPairs bytes with
  | none => rfl
  | some ps =>
    obtain ⟨length, least, most⟩ := settingPairs_length e
    rcases h with rfl | long | uneven
    · rw [List.length_nil] at length
      omega
    · omega
    · omega

/-- The pairs by identifier of pairs of settings and values. -/
def idPairs (pairs : List (Setting × Int)) : List (Int × Int) := pairs.map fun p => ((p.1.id : Int), p.2)

/-- A pair of words names a setting and gives a value. -/
theorem idPairs_words (pairs : List (Setting × Word)) :
    ((pairs.map fun p => (BitVec.ofNat 32 p.1.id, p.2)).map fun q : Word × Word => (q.1.toInt, q.2.toInt)) =
      idPairs (pairs.map fun p => (p.1, p.2.toInt)) := by
  unfold idPairs
  rw [List.map_map, List.map_map]
  refine List.map_congr_left fun p _ => ?_
  show ((BitVec.ofNat 32 p.1.id).toInt, p.2.toInt) = _
  rw [Setting.toInt_id]
  rfl

/-! ### Checks 2 to 4 -/

/-- R179: the identifiers are those of 1 to 35. -/
theorem ofId_named {n : Int} : (Setting.ofId n).isNone = false ↔ 1 ≤ n ∧ n ≤ 35 := by
  constructor
  · intro h
    by_contra outside
    rw [Setting.ofId_none (by omega)] at h
    cases h
  · rintro ⟨least, most⟩
    obtain ⟨k, rfl⟩ : ∃ k : Nat, n = k := ⟨n.toNat, by omega⟩
    have known : ∀ k : Fin 36, 1 ≤ k.val → (Setting.ofId (k.val : Int)).isNone = false := by decide
    have below : k < 36 := by omega
    have above : 1 ≤ k := by omega
    exact known ⟨k, below⟩ above

theorem firstRepeat_none {ps : List (Int × Int)} {earlier : List Int} {i : Nat} (once : (ps.map fun p => p.1).Nodup)
    (new : ∀ p ∈ ps, p.1 ∉ earlier) : firstRepeat earlier i ps = none := by
  induction ps generalizing earlier i with
  | nil => rfl
  | cons p ps ih =>
    obtain ⟨notLater, once'⟩ := List.nodup_cons.mp once
    unfold firstRepeat
    rw [if_neg (by simpa using new p List.mem_cons_self)]
    refine ih once' fun q hq repeated => ?_
    rcases List.mem_cons.mp repeated with same | early
    · exact notLater (List.mem_map.mpr ⟨q, hq, same⟩)
    · exact new q (List.mem_cons_of_mem p hq) early

/-- R179 check 3: the first pair whose identifier an earlier one wrote. -/
theorem firstRepeat_at {ps : List (Int × Int)} {earlier : List Int} {k i : Nat} {p : Int × Int} (present : ps[k]? = some p)
    (repeats : p.1 ∈ earlier ∨ ∃ q ∈ ps.take k, q.1 = p.1) (once : ((ps.take k).map fun q => q.1).Nodup)
    (new : ∀ q ∈ ps.take k, q.1 ∉ earlier) : firstRepeat earlier i ps = some (i + k) := by
  induction ps generalizing earlier k i with
  | nil => cases present
  | cons a ps ih =>
    unfold firstRepeat
    cases k with
    | zero =>
      cases present
      obtain early := repeats.resolve_right fun ⟨q, hq, _⟩ => by cases hq
      rw [if_pos (by simpa using early)]
      rfl
    | succ k =>
      rw [List.take_succ_cons] at repeats once new
      obtain ⟨notLater, once'⟩ := List.nodup_cons.mp once
      rw [if_neg (by simpa using new a List.mem_cons_self), ih (k := k) present ?_ once' fun q hq repeated => ?_]
      · congr 1
        omega
      · rcases repeats with early | ⟨q, hq, same⟩
        · exact .inl (List.mem_cons_of_mem _ early)
        · rcases List.mem_cons.mp hq with rfl | later
          · exact .inl (same ▸ List.mem_cons_self)
          · exact .inr ⟨q, later, same⟩
      · rcases List.mem_cons.mp repeated with same | early
        · exact notLater (List.mem_map.mpr ⟨q, hq, same⟩)
        · exact new q (List.mem_cons_of_mem a hq) early

section
variable {ps : List (Int × Int)} {k : Nat}

theorem checkPairs_unnamed (h : firstFailing (fun p : Int × Int => (Setting.ofId p.1).isNone) 0 ps = some k) :
    checkPairs ps = some k := by
  unfold checkPairs
  rw [h]
  rfl

theorem checkPairs_repeats (named : ∀ p ∈ ps, (Setting.ofId p.1).isNone = false) (h : firstRepeat [] 0 ps = some k) :
    checkPairs ps = some k := by
  unfold checkPairs
  rw [(firstFailing_eq_none_iff _ _ _).mpr named, h]
  rfl

end

section
variable {pairs : List (Setting × Int)}

theorem idPairs_named : ∀ p ∈ idPairs pairs, (Setting.ofId p.1).isNone = false := fun p hp => by
  obtain ⟨q, -, rfl⟩ := List.mem_map.mp hp
  rw [Setting.ofId_id]
  rfl

theorem idPairs_once (once : (pairs.map fun p => p.1).Nodup) : firstRepeat [] 0 (idPairs pairs) = none := by
  refine firstRepeat_none ?_ fun p _ => List.not_mem_nil
  unfold idPairs
  rw [List.map_map]
  have ids : ((fun p : Int × Int => p.1) ∘ fun p : Setting × Int => ((p.1.id : Int), p.2)) =
      (fun x : Setting => (x.id : Int)) ∘ fun p => p.1 := rfl
  rw [ids, ← List.map_map]
  exact once.map fun x y same => Setting.id_injective (by exact_mod_cast same)

variable (once : (pairs.map fun p => p.1).Nodup)
include once

theorem checkPairs_idPairs : checkPairs (idPairs pairs) =
    firstFailing (fun p : Setting × Int => !p.1.admits p.2) 0 pairs := by
  have values : ∀ (i : Nat) (l : List (Setting × Int)),
      firstFailing (fun p : Int × Int => ((Setting.ofId p.1).map fun x => !x.admits p.2).getD false) i (idPairs l) =
        firstFailing (fun p : Setting × Int => !p.1.admits p.2) i l := fun i l => by
    induction l generalizing i with
    | nil => rfl
    | cons p l ih =>
      unfold idPairs at ih ⊢
      rw [List.map_cons, firstFailing, firstFailing, ih, Setting.ofId_id]
      rfl
  unfold checkPairs
  rw [(firstFailing_eq_none_iff _ _ _).mpr idPairs_named, idPairs_once once, values]
  rfl

end

/-! ### The settings as they would stand -/

theorem applyPairs_idPairs (pairs : List (Setting × Int)) (t : Settings) :
    applyPairs t (idPairs pairs) = pairs.foldl (fun u p => u.write p.1 p.2) t := by
  induction pairs generalizing t with
  | nil => rfl
  | cons p pairs ih =>
    unfold idPairs at ih ⊢
    rw [List.map_cons, applyPairs, Setting.ofId_id]
    exact ih _

theorem foldl_write_other {pairs : List (Setting × Int)} {x : Setting} (h : x ∉ pairs.map fun p => p.1) (t : Settings) :
    (pairs.foldl (fun u p => u.write p.1 p.2) t).read x = t.read x := by
  induction pairs generalizing t with
  | nil => rfl
  | cons p pairs ih =>
    obtain ⟨other, later⟩ := List.ne_and_not_mem_of_not_mem_cons h
    rw [List.foldl_cons, ih later, Settings.read_write, if_neg (Ne.symm other)]

theorem foldl_write_read {pairs : List (Setting × Int)} (once : (pairs.map fun p => p.1).Nodup) (t : Settings)
    {p : Setting × Int} (written : p ∈ pairs) : (pairs.foldl (fun u p => u.write p.1 p.2) t).read p.1 = p.2 := by
  induction pairs generalizing t with
  | nil => cases written
  | cons q pairs ih =>
    obtain ⟨notLater, once'⟩ := List.nodup_cons.mp once
    rw [List.foldl_cons]
    rcases List.mem_cons.mp written with rfl | later
    · rw [foldl_write_other notLater, Settings.read_write, if_pos rfl]
    · exact ih once' _ later

/-! ### The pair that a cross-check blames (R179 checks 5 to 8) -/

section
variable {pairs : List (Setting × Int)} {x y : Setting} {k : Nat}

theorem pairOf_written (once : (pairs.map fun p => p.1).Nodup) (written : ∃ w, pairs[k]? = some (x, w)) :
    pairOf x (idPairs pairs) = some k := by
  obtain ⟨w, present⟩ := written
  induction pairs generalizing k with
  | nil => cases present
  | cons p pairs ih =>
    obtain ⟨notLater, once'⟩ := List.nodup_cons.mp once
    unfold pairOf idPairs at ih ⊢
    rw [List.map_cons, List.findIdx?_cons]
    cases k with
    | zero =>
      cases present
      rw [if_pos (decide_eq_true rfl)]
    | succ k =>
      have later : x ∈ pairs.map fun p => p.1 :=
        List.mem_map.mpr ⟨(x, w), List.mem_of_getElem? present, rfl⟩
      have other : ¬ (p.1.id : Int) = x.id := fun same => by
        have named : p.1 = x := Setting.id_injective (by exact_mod_cast same)
        rw [← named] at later
        exact notLater later
      rw [if_neg (by simpa using other), ih once' present]
      rfl

theorem pairOf_unwritten (unwritten : ∀ j : Nat, ¬ ∃ w, pairs[j]? = some (x, w)) : pairOf x (idPairs pairs) = none := by
  unfold pairOf idPairs
  refine List.findIdx?_eq_none_iff.mpr fun p hp => decide_eq_false fun same => ?_
  obtain ⟨q, hq, rfl⟩ := List.mem_map.mp hp
  obtain ⟨j, hj⟩ := List.getElem?_of_mem hq
  have ids : (q.1.id : Int) = x.id := same
  have named : q.1 = x := Setting.id_injective (by exact_mod_cast ids)
  exact unwritten j ⟨q.2, by rw [hj, ← named]⟩

theorem eitherPair_blamed (once : (pairs.map fun p => p.1).Nodup)
    (blamed : (∃ w, pairs[k]? = some (x, w)) ∨
      (∀ j : Nat, ¬ ∃ w, pairs[j]? = some (x, w)) ∧ ∃ w, pairs[k]? = some (y, w)) :
    eitherPair x y (idPairs pairs) = k := by
  unfold eitherPair
  rcases blamed with written | ⟨unwritten, written⟩
  · rw [pairOf_written once written]
    rfl
  · rw [pairOf_unwritten unwritten, pairOf_written once written]
    rfl

end

/-! ### Checks 9 to 11 -/

theorem insideSpan_iff (first last : Int) (vs : List Vertical) :
    insideSpan first last vs = true ↔ ∀ v ∈ vs, first ≤ v.distance ∧ v.distance ≤ last := by
  unfold insideSpan
  rw [List.all_eq_true]
  exact forall₂_congr fun v _ => within_iff _ _ _

theorem limitHolds_iff (limit : Int) (t : ShiftTable) : limitHolds limit t = true ↔
    ∀ i b, t.get i = some b → -limit ≤ b.target ∧ b.target ≤ limit ∧ -limit ≤ b.applied ∧ b.applied ≤ limit := by
  unfold limitHolds
  rw [List.all_eq_true]
  constructor
  · intro h i b present
    have both := h (i.val, b) ((mem_inUse t _).mpr ⟨i, rfl, present⟩)
    rw [Bool.and_eq_true, within_iff, within_iff] at both
    obtain ⟨⟨a, b⟩, c, d⟩ := both
    exact ⟨a, b, c, d⟩
  · rintro h p hp
    obtain ⟨i, -, present⟩ := (mem_inUse t p).mp hp
    obtain ⟨a, b, c, d⟩ := h i p.2 present
    rw [Bool.and_eq_true, within_iff, within_iff]
    exact ⟨⟨a, b⟩, c, d⟩

theorem letsScalesChange_iff (c : CarriageState) :
    c.letsScalesChange = true ↔ c = .unhomed ∨ c = .parked ∨ c = .halted := by
  cases c <;> simp [CarriageState.letsScalesChange]

/-- R179 check 11: the carriage lets the scales change, or none of them does. -/
def ScalesStand (s : State) (u : Settings) : Prop :=
  s.cable.state = .unhomed ∨ s.cable.state = .parked ∨ s.cable.state = .halted ∨
    ∀ x ∈ [Setting.traverseCountsPerMetre, .hoistCountsPerMetre, .homeOffset], u.read x = s.settings.read x

theorem scalesStand_iff (s : State) (u : Settings) : ScalesStand s u ↔ (s.cable.state.letsScalesChange = true ∨
    u.read .traverseCountsPerMetre = s.setting .traverseCountsPerMetre ∧
    u.read .hoistCountsPerMetre = s.setting .hoistCountsPerMetre ∧
    u.read .homeOffset = s.setting .homeOffset) := by
  unfold ScalesStand State.setting
  rw [letsScalesChange_iff]
  simp only [List.mem_cons, List.not_mem_nil, or_false, forall_eq_or_imp, forall_eq, or_assoc]

section
variable {s : State} {ps : List (Int × Int)} {t : Settings}

theorem checkSettings_stages (h : ¬ t.read .stageFloor < t.read .stageCeiling) :
    checkSettings s ps t = some (.badField, eitherPair .stageCeiling .stageFloor ps) := if_pos (not_lt.mp h)

variable (stages : t.read .stageFloor < t.read .stageCeiling)
include stages

theorem checkSettings_cadences (h : ¬ t.read .floodCadence ≤ t.read .quietCadence) :
    checkSettings s ps t = some (.badField, eitherPair .floodCadence .quietCadence ps) :=
  (if_neg (not_le.mpr stages)).trans (if_pos (not_le.mp h))

variable (cadences : t.read .floodCadence ≤ t.read .quietCadence)
include cadences

theorem checkSettings_span (h : ¬ t.read .spanStart < t.read .spanEnd) :
    checkSettings s ps t = some (.badField, eitherPair .spanEnd .spanStart ps) :=
  (if_neg (not_le.mpr stages)).trans ((if_neg (not_lt.mpr cadences)).trans (if_pos (not_lt.mp h)))

variable (span : t.read .spanStart < t.read .spanEnd)
include span

theorem checkSettings_duties (h : ¬ t.read .traverseSlowDuty ≤ t.read .traverseFastDuty) :
    checkSettings s ps t = some (.badField, eitherPair .traverseSlowDuty .traverseFastDuty ps) :=
  (if_neg (not_le.mpr stages)).trans ((if_neg (not_lt.mpr cadences)).trans ((if_neg (not_le.mpr span)).trans
    (if_pos (not_le.mp h))))

variable (duties : t.read .traverseSlowDuty ≤ t.read .traverseFastDuty)
include duties

theorem checkSettings_inside (h : ¬ insideSpan (t.read .spanStart) (t.read .spanEnd) s.verticals = true) :
    checkSettings s ps t = some (.outOfLimits, 0) :=
  (if_neg (not_le.mpr stages)).trans ((if_neg (not_lt.mpr cadences)).trans ((if_neg (not_le.mpr span)).trans
    ((if_neg (not_lt.mpr duties)).trans (if_pos h))))

variable (inside : insideSpan (t.read .spanStart) (t.read .spanEnd) s.verticals = true)
include inside

theorem checkSettings_limits (h : ¬ limitHolds (t.read .shiftLimit) s.rating.bands = true) :
    checkSettings s ps t = some (.outOfLimits, 0) :=
  (if_neg (not_le.mpr stages)).trans ((if_neg (not_lt.mpr cadences)).trans ((if_neg (not_le.mpr span)).trans
    ((if_neg (not_lt.mpr duties)).trans ((if_neg (not_not.mpr inside)).trans (if_pos h)))))

variable (limits : limitHolds (t.read .shiftLimit) s.rating.bands = true)
include limits

theorem checkSettings_scales (h : ¬ ScalesStand s t) : checkSettings s ps t = some (.wrongState, 0) := by
  rw [scalesStand_iff, not_or, not_and_or, not_and_or] at h
  exact (if_neg (not_le.mpr stages)).trans ((if_neg (not_lt.mpr cadences)).trans ((if_neg (not_le.mpr span)).trans
    ((if_neg (not_lt.mpr duties)).trans ((if_neg (not_not.mpr inside)).trans ((if_neg (not_not.mpr limits)).trans
      (if_pos h))))))

end

/-! ### The request (R179) -/

section
variable {params : List Byte} {ps : List (Int × Int)} {s : State} (read : settingPairs params = some ps)
include read

theorem writeSettings_badPair {k : Nat} (h : checkPairs ps = some k) : writeSettings params s = badField s k := by
  unfold writeSettings
  rw [read]
  dsimp only
  rw [h]

variable (checked : checkPairs ps = none)
include checked

theorem writeSettings_refused {e : Reject × Nat} (h : checkSettings s ps (applyPairs s.settings ps) = some e) :
    writeSettings params s = refused s e.1 e.2 := by
  unfold writeSettings
  rw [read]
  dsimp only
  rw [checked]
  dsimp only
  rw [h]

theorem writeSettings_applies (h : checkSettings s ps (applyPairs s.settings ps) = none) :
    writeSettings params s =
      done (applySettings (applyPairs s.settings ps) s) (ps.flatMap fun p => pairBytes p.1 p.2) := by
  unfold writeSettings
  rw [read]
  dsimp only
  rw [checked]
  dsimp only
  rw [h]

end

theorem writeSettings_none {params : List Byte} (s : State) (h : settingPairs params = none) :
    writeSettings params s = badField s 0 := by
  unfold writeSettings
  rw [h]

end Sys2Proof.Machine
end

section
/-! WRITE SETTINGS (R11, R179, R180): the request decoded and its checks in their order, what the settings written do at
once, and the channels tested against a new floor or ceiling. -/

namespace Sys2Proof.Machine

/-! ### The pairs of a request -/

section
variable {pairs : List (Setting × Word)}

theorem settingWords_length (pairs : List (Setting × Word)) :
    (paramBytes (pairs.flatMap fun p => [BitVec.ofNat 32 p.1.id, p.2])).length = 8 * pairs.length := by
  rw [paramBytes_length, flatMap_length_const (n := 2) fun q _ => rfl]
  omega

theorem settingPairs_settings (least : 1 ≤ pairs.length) (most : pairs.length ≤ 8) :
    settingPairs (paramBytes (pairs.flatMap fun p => [BitVec.ofNat 32 p.1.id, p.2])) =
      some (idPairs (pairs.map fun p => (p.1, p.2.toInt))) := by
  have words : (pairs.flatMap fun p => [BitVec.ofNat 32 p.1.id, p.2]) =
      (pairs.map fun p => (BitVec.ofNat 32 p.1.id, p.2)).flatMap fun q : Word × Word => [q.1, q.2] :=
    by rw [List.flatMap_map]
  rw [words, settingPairs_words (by rw [List.length_map]; exact least) (by rw [List.length_map]; exact most),
    idPairs_words]

theorem written_values {x : Setting} {k : Nat} :
    (∃ v, (pairs.map fun p => (p.1, p.2.toInt))[k]? = some (x, v)) ↔ ∃ w, pairs[k]? = some (x, w) := by
  constructor
  · rintro ⟨v, h⟩
    rw [List.getElem?_map, Option.map_eq_some_iff] at h
    obtain ⟨p, present, e⟩ := h
    cases e
    exact ⟨p.2, present⟩
  · rintro ⟨w, h⟩
    exact ⟨w.toInt, by rw [List.getElem?_map, h]; rfl⟩

end

/-- A value in the range of a setting is that of its word. -/
theorem admits_small {x : Setting} {v : Int} (h : x.admits v = true) : (BitVec.ofInt 32 v).toInt = v := by
  have rows : -2147483648 ≤ x.row.1 ∧ x.row.2.1 < 2147483648 := by cases x <;> decide
  obtain ⟨least, most⟩ := (Setting.admits_iff x v).mp h
  exact toInt_ofInt (by omega) (by omega)

theorem idPairs_values {pairs : List (Setting × Int)} (admitted : ∀ p ∈ pairs, p.1.admits p.2 = true) :
    ((pairs.map fun p => (p.1, BitVec.ofInt 32 p.2)).map fun p : Setting × Word => (p.1, p.2.toInt)) = pairs := by
  rw [List.map_map]
  refine (List.map_congr_left fun p hp => ?_).trans (List.map_id pairs)
  show (p.1, (BitVec.ofInt 32 p.2).toInt) = p
  rw [admits_small (admitted p hp)]

theorem settingBytes_pairs (pairs : List (Setting × Int)) :
    ((idPairs pairs).flatMap fun p => pairBytes p.1 p.2) = pairs.flatMap fun p => BitVec.ofNat 8 p.1.id :: be4 p.2 := by
  unfold idPairs
  rw [List.flatMap_map]
  exact List.flatMap_congr fun p _ => pairBytes_id p.1 p.2

/-! ### What the settings written do at once (R11, R180) -/

theorem retest_keeps (s : State) (c : Channel) : (c.retest s).kind = c.kind ∧ (c.retest s).reading = c.reading := by
  unfold Channel.retest
  split
  · split
    · exact ⟨rfl, rfl⟩
    · exact ⟨rfl, rfl⟩
  · exact ⟨rfl, rfl⟩

theorem retestChannels_get (s : State) (i : ChannelNumber) : (retestChannels s).channels.get i = (s.channel i).retest s := by
  rw [(retestChannels_frame s).channels]
  unfold retestChannels
  rw [raiseIf_channels]
  exact Vector.getElem_ofFn i.isLt

theorem applySettings_channels (t : Settings) (s : State) (i : ChannelNumber) :
    ((applySettings t s).channels.get i).kind = (s.channels.get i).kind ∧
      ((applySettings t s).channels.get i).reading = (s.channels.get i).reading := by
  have cable : (applySettings t s).channels =
      (whenChanged [.stageFloor, .stageCeiling] s.settings t retestChannels (s.setSettings t)).channels :=
    (retestCable_frame _ _).channels
  rw [cable]
  unfold whenChanged
  split
  · rw [retestChannels_get]
    exact retest_keeps _ _
  · exact ⟨rfl, rfl⟩

/-- R11: the condition of a lawful channel with a reading, once it is tested again. -/
theorem retest_condition {s : State} {c : Channel} {r : Int} (lawful : c.lawful) (present : c.reading = some r) :
    (c.retest s).condition = if c.kind = .frequency ∧ c.lastGate = some 1000000 then .outOfRange
      else if s.settings.read .stageFloor ≤ r ∧ r ≤ s.settings.read .stageCeiling then .valid else .outOfRange := by
  obtain ⟨reading, -, -, -, gate⟩ := lawful
  have shown := reading.mp (by rw [present]; rfl)
  have shows : c.showsReading = true := (showsReading_iff c).mpr shown
  have saturated : c.saturated = true ↔ c.kind = .frequency ∧ c.lastGate = some 1000000 := by
    unfold Channel.saturated
    rw [Bool.and_eq_true, beq_iff_eq, beq_iff_eq]
    rfl
  unfold Channel.retest
  rw [present]
  dsimp only
  by_cases full : c.saturated = true
  · rw [shows, full, if_neg (by decide), if_pos (saturated.mp full)]
    exact shown.resolve_left fun valid => gate valid (saturated.mp full).1 (saturated.mp full).2
  · rw [shows, Bool.eq_false_iff.mpr full, if_pos (by decide), if_neg fun h => full (saturated.mpr h)]
    exact if_congr (within_iff _ _ _) rfl rfl

theorem attends_raiseIf (s : State) (b : Bool) (r q : Reason) :
    (s.raiseIf b r).attends q = (s.attends q || (b && decide (r = q))) := by
  cases b with
  | false => exact (Bool.or_false _).symm
  | true => exact attends_raise s r q

theorem retestChannels_attends (s : State) : (retestChannels s).attends .channelChanged = true ↔
    s.attends .channelChanged = true ∨
      ∃ i, ((retestChannels s).channels.get i).condition ≠ (s.channels.get i).condition := by
  have changed : ∀ i, ((retestChannels s).channels.get i).condition ≠ (s.channels.get i).condition ↔
      ((Vector.get (Vector.ofFn fun i => (s.channel i).retest s) i).condition != (s.channel i).condition) = true :=
    fun i => by
      have get : Vector.get (Vector.ofFn fun i => (s.channel i).retest s) i = (s.channel i).retest s :=
        Vector.getElem_ofFn i.isLt
      rw [retestChannels_get, get, bne_iff_ne]
      rfl
  simp only [changed]
  unfold retestChannels
  dsimp only
  rw [attends_raiseIf, decide_eq_true rfl, Bool.and_true, Bool.or_eq_true, List.any_eq_true]
  simp only [List.mem_finRange, true_and]
  rfl

/-! ### A write that changes no cableway setting -/

theorem settingsDiffer_none {xs : List Setting} {t t' : Settings} (h : ∀ x ∈ xs, t.read x = t'.read x) :
    settingsDiffer xs t t' = false :=
  List.any_eq_false.mpr fun x hx => by rw [h x hx, bne_self_eq_false]; decide

theorem inTurn_idle {fs : List (State → State)} (h : ∀ f ∈ fs, ∀ s, f s = s) (s : State) : inTurn fs s = s := by
  induction fs generalizing s with
  | nil => rfl
  | cons f fs ih =>
    unfold inTurn
    rw [h f List.mem_cons_self]
    exact ih (fun g hg => h g (List.mem_cons_of_mem f hg)) s

/-- R180: the settings whose write brings about a test in the cableway. -/
def cablewaySettings : List Setting :=
  [.jamTimeout, .snagLevel, .homeLevel, .topLevel, .surfaceLevel, .bottomLevel, .surfaceSearchLimit]

theorem retestCable_same {before : Settings} {s : State} (h : ∀ x ∈ cablewaySettings, before.read x = s.settings.read x) :
    retestCable before s = s.setFreeReads (s.freeReads + 1) := by
  have idle : ∀ {xs : List Setting} {act : State → State}, (∀ x ∈ xs, x ∈ cablewaySettings) →
      ∀ u, whenChanged xs before s.settings act u = u := fun inside u => by
    unfold whenChanged
    rw [settingsDiffer_none fun x hx => h x (inside x hx), if_neg (by decide)]
  refine retestCable_of_orders (P := fun t => t = s.setFreeReads (s.freeReads + 1)) fun fs tests =>
    inTurn_idle (fun f hf => ?_) _
  have test := (tests f).mp hf
  unfold cableTests at test
  simp only [List.mem_cons, List.not_mem_nil, or_false] at test
  rcases test with rfl | rfl | rfl
  · exact idle (by decide)
  · exact idle (by decide)
  · exact idle (by decide)

/-- R11, R180: a floor or a ceiling that changes alone tests the channels, and nothing else. -/
theorem applySettings_limit {t : Settings} {s : State} {x : Setting} (limit : x ∈ [Setting.stageFloor, .stageCeiling])
    (changed : s.settings.read x ≠ t.read x) (same : ∀ y ∈ cablewaySettings, s.settings.read y = t.read y) :
    applySettings t s = (retestChannels (s.setSettings t)).setFreeReads ((retestChannels (s.setSettings t)).freeReads + 1) := by
  have settings : (retestChannels (s.setSettings t)).settings = t := (retestChannels_frame _).settings
  unfold applySettings
  rw [whenChanged, if_pos (settingsDiffer_of_mem limit changed)]
  exact retestCable_same fun y hy => (same y hy).trans (congrArg (fun u : Settings => u.read y) settings.symm)

theorem applySettings_settings (t : Settings) (s : State) : (applySettings t s).settings = t := by
  obtain ⟨v, n, f⟩ := applySettings_frame t s
  exact f.settings

/-- R11, R12: what a floor or a ceiling that changes alone does to the channels. -/
theorem applySettings_tests {t : Settings} {s : State} {x : Setting} (limit : x ∈ [Setting.stageFloor, .stageCeiling])
    (changed : s.settings.read x ≠ t.read x) (same : ∀ y ∈ cablewaySettings, s.settings.read y = t.read y)
    (channels : ChannelsLaw s) :
    (∀ i r, (s.channels.get i).reading = some r → ((applySettings t s).channels.get i).condition =
      if (s.channels.get i).kind = .frequency ∧ (s.channels.get i).lastGate = some 1000000 then .outOfRange
      else if (applySettings t s).settings.read .stageFloor ≤ r ∧ r ≤ (applySettings t s).settings.read .stageCeiling
      then .valid else .outOfRange) ∧
    ((applySettings t s).attends .channelChanged = true ↔ s.attends .channelChanged = true ∨
      ∃ i, ((applySettings t s).channels.get i).condition ≠ (s.channels.get i).condition) := by
  have tested : ∀ i, (applySettings t s).channels.get i = (s.channel i).retest (s.setSettings t) := fun i => by
    rw [applySettings_limit limit changed same]
    exact retestChannels_get (s.setSettings t) i
  refine ⟨fun i r present => ?_, ?_⟩
  · rw [applySettings_settings, tested]
    exact retest_condition (s := s.setSettings t) (channels i) present
  · rw [applySettings_limit limit changed same]
    exact retestChannels_attends (s.setSettings t)

theorem answered_attends (s : State) {r : Reason} (other : r ≠ .answerReady) (status : Status) (code : Byte)
    (body : List Byte) : (s.answered status code body).attends r = s.attends r := by
  have raised : (s.answered status code body).attends r = (s.raise .answerReady).attends r := rfl
  rw [raised, attends_raise, decide_eq_false (Ne.symm other), Bool.or_false]

/-! ### The request -/

/-- R179: the checks that the settings as they would stand pass. -/
def Checked (s : State) (u : Settings) : Prop :=
  (∀ v ∈ s.verticals, u.read .spanStart ≤ v.distance ∧ v.distance ≤ u.read .spanEnd) ∧
  (∀ i b, s.rating.bands.get i = some b →
    -u.read .shiftLimit ≤ b.target ∧ b.target ≤ u.read .shiftLimit ∧
    -u.read .shiftLimit ≤ b.applied ∧ b.applied ≤ u.read .shiftLimit) ∧
  ScalesStand s u

/-- R179, R180: pairs of different settings that leave every range and cross-check holding are taken. -/
theorem exec_writeSettings {s : State} (l : Listens s) {pairs : List (Setting × Int)} (least : 1 ≤ pairs.length)
    (most : pairs.length ≤ 8) (once : (pairs.map fun p => p.1).Nodup)
    (law : SettingsLaw (pairs.foldl (fun u p => u.write p.1 p.2) s.settings))
    (checked : Checked s (pairs.foldl (fun u p => u.write p.1 p.2) s.settings)) :
    exec (.writeSettings (paramBytes (pairs.flatMap fun p => [BitVec.ofNat 32 p.1.id, BitVec.ofInt 32 p.2]))) s =
      .next ((applySettings (pairs.foldl (fun u p => u.write p.1 p.2) s.settings) s).answered .done 0x06
        (pairs.flatMap fun p => BitVec.ofNat 8 p.1.id :: be4 p.2)) := by
  obtain ⟨ranges, stages, cadences, span, duties⟩ := law
  obtain ⟨inside, limits, scales⟩ := checked
  have admitted : ∀ p ∈ pairs, p.1.admits p.2 = true := fun p hp => by
    have value := ranges p.1
    rwa [foldl_write_read once _ hp] at value
  have words : (pairs.flatMap fun p => [BitVec.ofNat 32 p.1.id, BitVec.ofInt 32 p.2]) =
      (pairs.map fun p => (p.1, BitVec.ofInt 32 p.2)).flatMap fun p : Setting × Word => [BitVec.ofNat 32 p.1.id, p.2] :=
    by rw [List.flatMap_map]
  have length : (pairs.map fun p => (p.1, BitVec.ofInt 32 p.2)).length = pairs.length := List.length_map _
  have read := settingPairs_settings (pairs := pairs.map fun p => (p.1, BitVec.ofInt 32 p.2)) (by omega) (by omega)
  rw [← words, idPairs_values admitted] at read
  have pairsPass : checkPairs (idPairs pairs) = none := by
    rw [checkPairs_idPairs once, firstFailing_eq_none_iff]
    intro p hp
    rw [admitted p hp]
    rfl
  have settingsPass : checkSettings s (idPairs pairs) (applyPairs s.settings (idPairs pairs)) = none := by
    rw [applyPairs_idPairs, checkSettings_eq_none_iff]
    exact ⟨stages, cadences, span, duties, (insideSpan_iff _ _ _).mpr inside, (limitHolds_iff _ _).mpr limits,
      (scalesStand_iff _ _).mp scales⟩
  have applies := writeSettings_applies read pairsPass settingsPass
  rw [applyPairs_idPairs, settingBytes_pairs] at applies
  refine l.exec_done .writeSettings ?_ applies
  rw [words, settingWords_length, length]
  omega

end Sys2Proof.Machine

open Sys2Proof Sys2Proof.Machine

/-- Settles O24: the pairs that pass are applied, a floor or ceiling tests the channels, and a request that fails is
refused at the first of its checks. -/
theorem writeSettingsAppliesEveryPair : Obligations.WriteSettingsAppliesEveryPair := by
  refine ⟨fun pairs s running heard empty least most once => ?applies,
    fun x v s limit running heard empty channels law written changed section_ bands => ?limit,
    fun s running heard empty => ?refused⟩
  case applies =>
    intro u law inside limits scales
    have l : Listens s := ⟨running, heard, empty⟩
    obtain ⟨v, n, f⟩ := applySettings_frame u s
    exact ⟨_, exec_writeSettings l least most once law ⟨inside, limits, scales⟩, f.settings, rfl, f.clock, f.stage,
      f.rating, f.warning, f.mask, f.cursor, f.contacts, applySettings_channels u s⟩
  case limit =>
    have l : Listens s := ⟨running, heard, empty⟩
    have other : ∀ y, y ≠ x → (s.settings.write x v).read y = s.settings.read y := fun y h => by
      rw [Settings.read_write, if_neg (Ne.symm h)]
    have unlike : ∀ y, y ∉ [Setting.stageFloor, .stageCeiling] → y ≠ x := fun y outside same => by
      rw [same] at outside
      rcases limit with rfl | rfl
      · exact outside (by decide)
      · exact outside (by decide)
    have read : (s.settings.write x v).read x = v := by rw [Settings.read_write, if_pos rfl]
    obtain ⟨-, -, inside⟩ := section_
    have checked : Checked s (s.settings.write x v) := by
      unfold Checked ScalesStand
      rw [other .spanStart (unlike _ (by decide)), other .spanEnd (unlike _ (by decide)),
        other .shiftLimit (unlike _ (by decide))]
      refine ⟨inside, fun i b present => (bands.lawful present).2, .inr (.inr (.inr fun y scale => other y (unlike y ?_)))⟩
      simp only [List.mem_cons, List.not_mem_nil, or_false] at scale
      rcases scale with rfl | rfl | rfl
      · decide
      · decide
      · decide
    have taken := exec_writeSettings l (pairs := [(x, v)]) (Nat.le_refl 1) (Nat.le_add_left 1 7) (List.nodup_singleton x) written checked
    obtain ⟨conditions, attends⟩ := applySettings_tests (t := s.settings.write x v) (x := x) (by simpa using limit)
      (by rw [read]; exact changed) (fun y cable => (other y (unlike y fun inside => by
        simp only [List.mem_cons, List.not_mem_nil, or_false] at inside
        rcases inside with rfl | rfl
        · exact absurd cable (by decide)
        · exact absurd cable (by decide))).symm) channels
    exact ⟨_, taken, conditions, (iff_of_eq (congrArg (· = true)
      (answered_attends _ (r := .channelChanged) (by decide) _ _ _))).trans attends⟩
  case refused =>
    intro refused
    have l : Listens s := ⟨running, heard, empty⟩
    have fails : ∀ {params : List Byte} {why : Reject} {detail : Nat}, params.length ≤ 128 →
        writeSettings params s = Machine.refused s why detail → refused params (BitVec.ofNat 8 why.code) detail :=
      fun short owned => l.exec_refused .writeSettings short owned
    refine ⟨fun bytes short bad => fails (why := .badField) short (writeSettings_none s (settingPairs_none bad)),
      fun pairs k p most present => ?words, fun pairs least most once => ?settings⟩
    case words =>
      intro params named
      have least : 1 ≤ pairs.length := Nat.lt_of_le_of_lt (Nat.zero_le k) (List.getElem?_eq_some_iff.mp present).1
      have short : params.length ≤ 128 := by
        show (paramBytes _).length ≤ 128
        rw [pairWords_length]
        omega
      have read := settingPairs_words least most
      have present' : (pairs.map fun q => (q.1.toInt, q.2.toInt))[k]? = some (p.1.toInt, p.2.toInt) := by
        rw [List.getElem?_map, present]
        rfl
      have badPair : checkPairs (pairs.map fun q => (q.1.toInt, q.2.toInt)) = some k → refused params 3 k :=
        fun h => fails (why := .badField) short (writeSettings_badPair read h)
      refine ⟨fun unnamed before => badPair (checkPairs_unnamed ?_), fun allNamed repeats once =>
        badPair (checkPairs_repeats ?_ ?_)⟩
      · have first := firstFailing_at (bad := fun p : Int × Int => (Setting.ofId p.1).isNone) (i := 0) present'
          (by rw [← Bool.not_eq_false]; exact fun known => unnamed (ofId_named.mp known)) fun q hq => by
            rw [← List.map_take] at hq
            obtain ⟨w, hw, rfl⟩ := List.mem_map.mp hq
            exact ofId_named.mpr (before w hw)
        rwa [Nat.zero_add] at first
      · intro q hq
        obtain ⟨w, hw, rfl⟩ := List.mem_map.mp hq
        exact ofId_named.mpr (allNamed w hw)
      · have first := firstRepeat_at (earlier := []) (i := 0) present' (.inr ?_) ?_ fun _ _ => List.not_mem_nil
        · rwa [Nat.zero_add] at first
        · obtain ⟨q, hq, same⟩ := repeats
          rw [← List.map_take]
          exact ⟨_, List.mem_map_of_mem hq, congrArg BitVec.toInt same⟩
        · rw [← List.map_take, List.map_map]
          have ids : ((fun q : Int × Int => q.1) ∘ fun q : Word × Word => (q.1.toInt, q.2.toInt)) =
              BitVec.toInt ∘ fun q => q.1 := rfl
          rw [ids, ← List.map_map]
          exact once.map fun a b same => BitVec.eq_of_toInt_eq same
    case settings =>
      intro params u admitted
      have short : params.length ≤ 128 := by
        show (paramBytes _).length ≤ 128
        rw [settingWords_length]
        omega
      have read := settingPairs_settings least most
      have once' : ((pairs.map fun p => (p.1, p.2.toInt)).map fun p => p.1).Nodup := by
        rw [List.map_map]
        exact once
      refine ⟨fun k p present unfit before => ?_, fun fit => ?_⟩
      · have first := firstFailing_at (bad := fun p : Setting × Int => !p.1.admits p.2) (i := 0)
          (l := pairs.map fun p => (p.1, p.2.toInt)) (k := k) (p := (p.1, p.2.toInt))
          (by rw [List.getElem?_map, present]; rfl)
          (by rw [Bool.not_eq_true']; exact Bool.eq_false_iff.mpr unfit) fun q hq => by
            rw [← List.map_take] at hq
            obtain ⟨w, hw, rfl⟩ := List.mem_map.mp hq
            simpa using before w hw
        rw [Nat.zero_add, ← checkPairs_idPairs once'] at first
        exact fails (why := .badField) short (writeSettings_badPair read first)
      · intro written blamed stages cadences span duties inside limits scales
        have pass : checkPairs (idPairs (pairs.map fun p => (p.1, p.2.toInt))) = none := by
          rw [checkPairs_idPairs once', firstFailing_eq_none_iff]
          intro q hq
          obtain ⟨w, hw, rfl⟩ := List.mem_map.mp hq
          simpa using fit w hw
        have stand : applyPairs s.settings (idPairs (pairs.map fun p => (p.1, p.2.toInt))) = u := by
          rw [applyPairs_idPairs, List.foldl_map]
        have fails' : ∀ {why : Reject} {detail : Nat},
            checkSettings s (idPairs (pairs.map fun p => (p.1, p.2.toInt))) u = some (why, detail) →
            refused params (BitVec.ofNat 8 why.code) detail := fun h =>
          fails short (writeSettings_refused read pass (by rw [stand]; exact h))
        have blame : ∀ {x y : Setting} {k : Nat}, blamed x y k →
            eitherPair x y (idPairs (pairs.map fun p => (p.1, p.2.toInt))) = k := fun {x y k} h => by
          refine eitherPair_blamed once' ?_
          simp only [written_values]
          exact h
        have isInside := insideSpan_iff (u.read .spanStart) (u.read .spanEnd) s.verticals
        have isLimited := limitHolds_iff (u.read .shiftLimit) s.rating.bands
        refine ⟨fun h k b => ?_, fun h1 h k b => ?_, fun h1 h2 h k b => ?_, fun h1 h2 h3 h k b => ?_,
          fun h1 h2 h3 h4 h => ?_, fun h1 h2 h3 h4 h5 h => ?_, fun h1 h2 h3 h4 h5 h6 h => ?_⟩
        · exact blame b ▸ fails' (checkSettings_stages h)
        · exact blame b ▸ fails' (checkSettings_cadences h1 h)
        · exact blame b ▸ fails' (checkSettings_span h1 h2 h)
        · exact blame b ▸ fails' (checkSettings_duties h1 h2 h3 h)
        · exact fails' (checkSettings_inside h1 h2 h3 h4 (isInside.not.mpr h))
        · exact fails' (checkSettings_limits h1 h2 h3 h4 (isInside.mpr h5) (isLimited.not.mpr h))
        · exact fails' (checkSettings_scales h1 h2 h3 h4 (isInside.mpr h5) (isLimited.mpr h6) h)

end

section
/-! The vote of a settlement: what the comparisons (R27 to R31) and the watch of a float (R32, R33) leave of a channel's
record, and the reason that a change of standing raises (R34). -/

namespace Sys2Proof.Machine

/-! ### The reference and the demotion (R28, R30) -/

theorem role_check_iff (s : State) (i : ChannelNumber) : s.stage.setup.role i = .check ↔ i ∈ s.checkList := by
  unfold State.checkList
  rw [List.mem_filter, beq_iff_eq]
  exact ⟨fun h => ⟨List.mem_finRange i, h⟩, fun h => h.2⟩

theorem primary_not_check (s : State) : s.stage.setup.primary ∉ s.checkList :=
  fun h => ((mem_checkList_iff s _).mp h).1 rfl

theorem server_mayServe {s : State} {i : ChannelNumber} (h : s.server = some i) : s.mayServe i = true := by
  unfold State.server at h
  split at h
  · next primary =>
    cases h
    exact primary
  · exact List.find?_some h

theorem server_primary_iff (s : State) :
    s.server = some s.stage.setup.primary ↔ s.mayServe s.stage.setup.primary = true :=
  ⟨server_mayServe, server_of_primary⟩

theorem mem_agreeingSet_iff (s : State) (i : ChannelNumber) :
    i ∈ s.agreeingSet ↔ i ∈ s.checkList ∧ s.mayServe i = true := List.mem_filter

theorem two_le_length_iff {α : Type} [DecidableEq α] {l : List α} (once : l.Nodup) :
    2 ≤ l.length ↔ ∃ i j, i ≠ j ∧ i ∈ l ∧ j ∈ l := by
  rw [← List.toFinset_card_of_nodup once]
  refine Finset.one_lt_card.trans ⟨?_, ?_⟩
  · rintro ⟨i, hi, j, hj, distinct⟩
    exact ⟨i, j, distinct, List.mem_toFinset.mp hi, List.mem_toFinset.mp hj⟩
  · rintro ⟨i, j, distinct, hi, hj⟩
    exact ⟨i, List.mem_toFinset.mpr hi, j, List.mem_toFinset.mpr hj, distinct⟩

/-- R30: the usable primary is demoted when two or more usable checks agree with one another and not with it. -/
theorem demotion_iff (s : State) : s.demotion = true ↔
    s.mayServe s.stage.setup.primary = true ∧ (∃ i j, i ≠ j ∧ i ∈ s.agreeingSet ∧ j ∈ s.agreeingSet) ∧
      (∀ i ∈ s.agreeingSet, s.agree i s.stage.setup.primary = false) ∧
      ∀ i ∈ s.agreeingSet, ∀ j ∈ s.agreeingSet, s.agree i j = true := by
  have once : s.agreeingSet.Nodup := ((List.nodup_finRange _).filter _).filter _
  unfold State.demotion
  rw [Bool.and_eq_true, Bool.and_eq_true, Bool.and_eq_true, beq_iff_eq, server_primary_iff, decide_eq_true_iff,
    two_le_length_iff once, List.all_eq_true, List.all_eq_true, and_assoc, and_assoc]
  simp only [Bool.not_eq_true', List.all_eq_true]

/-! ### A record compared (R29 to R31) -/

/-- R27: the standings that take part in the comparisons and carry a running watch. -/
def VoteRecord.Compares (v : VoteRecord) : Prop := v.standing = .candidate ∨ v.standing = .disagreeing

section
variable {v : VoteRecord} {persistence : Int}

theorem judge_persists (disagrees : persistence ≤ (v.disagree : Int)) (candidate : v.standing = .candidate) :
    v.judge persistence = v.stand .disagreeing := by
  unfold VoteRecord.judge
  rw [candidate]
  exact if_pos disagrees

theorem judge_returns (agrees : persistence ≤ (v.agree : Int)) (disagreeing : v.standing = .disagreeing) :
    v.judge persistence = v.stand .candidate := by
  unfold VoteRecord.judge
  rw [disagreeing]
  exact if_pos agrees

theorem judge_keeps (candidate : v.standing = .candidate → (v.disagree : Int) < persistence)
    (disagreeing : v.standing = .disagreeing → (v.agree : Int) < persistence) : v.judge persistence = v := by
  unfold VoteRecord.judge
  cases standing : v.standing with
  | candidate => exact if_neg (not_le.mpr (candidate standing))
  | disagreeing => exact if_neg (not_le.mpr (disagreeing standing))
  | excluded | stuck => rfl

/-- R29: a channel that agrees counts toward Candidate. -/
theorem judge_agrees (least : 1 ≤ persistence)
    (few : v.standing = .candidate ∨ (countUp Config.voteCountMax v.agree : Int) < persistence) :
    (v.compare true).judge persistence = { v with agree := countUp Config.voteCountMax v.agree, disagree := 0 } := by
  refine judge_keeps (fun _ => ?_) fun (disagreeing : v.standing = .disagreeing) => ?_
  · show ((0 : Nat) : Int) < persistence
    omega
  · exact few.resolve_left fun e => by cases e.symm.trans disagreeing

/-- R29: a channel that does not agree counts toward Disagreeing. -/
theorem judge_differs (least : 1 ≤ persistence)
    (few : v.standing = .disagreeing ∨ (countUp Config.voteCountMax v.disagree : Int) < persistence) :
    (v.compare false).judge persistence = { v with disagree := countUp Config.voteCountMax v.disagree, agree := 0 } := by
  refine judge_keeps (fun (candidate : v.standing = .candidate) => ?_) fun _ => ?_
  · exact few.resolve_left fun e => by cases e.symm.trans candidate
  · show ((0 : Nat) : Int) < persistence
    omega

theorem judge_compares (h : v.Compares) : (v.judge persistence).Compares := by
  unfold VoteRecord.judge
  split
  · split
    · exact Or.inr rfl
    · exact h
  · split
    · exact Or.inl rfl
    · exact h
  · exact h
  · exact h

theorem compare_standing (agrees : Bool) (v : VoteRecord) : (v.compare agrees).standing = v.standing := by
  unfold VoteRecord.compare
  split <;> rfl

end

/-! ### What the comparisons leave of a channel (R27 to R31) -/

section
variable {s : State} {i r : ChannelNumber}

theorem comparable_iff (s : State) (i : ChannelNumber) : s.comparable i = true ↔
    (s.channels.get i).condition = .valid ∧
      (i ∈ s.checkList ∧ (s.vote i).Compares ∨ i = s.stage.setup.primary ∧ (s.vote i).standing = .disagreeing) := by
  have primary : s.stage.setup.role i = .primary ↔ i = s.stage.setup.primary := by
    unfold VoteSetup.role
    split
    · next e => exact ⟨fun _ => e, fun _ => rfl⟩
    · next e => exact ⟨fun h => (by split at h <;> cases h), fun h => absurd h e⟩
  rw [← role_check_iff, ← primary]
  unfold State.comparable State.validChannel State.channel VoteRecord.Compares
  rw [Bool.and_eq_true, beq_iff_eq]
  refine and_congr_right fun _ => ?_
  cases s.stage.setup.role i <;> cases (s.vote i).standing <;> simp

theorem comparable_compares (h : s.comparable i = true) : (s.vote i).Compares := by
  obtain ⟨-, ⟨-, compares⟩ | ⟨-, disagreeing⟩⟩ := (comparable_iff s i).mp h
  · exact compares
  · exact Or.inr disagreeing

/-- R28, R29, R31: a comparable channel against the reference. -/
theorem compared_comparable (reference : s.server = some r) (other : i ≠ r)
    (member : ¬ (s.demotion = true ∧ i ∈ s.agreeingSet)) (comparable : s.comparable i = true) :
    s.compared i = ((s.vote i).compare (s.agree i r)).judge (s.setting .votePersistence) := by
  unfold State.compared
  dsimp only
  rw [reference]
  dsimp only
  rw [if_neg other, if_neg, if_pos comparable]
  rw [Bool.and_eq_true, List.contains_iff_mem]
  exact member

/-- R30: a check of the set that demotes the primary. -/
theorem compared_member (demotion : s.demotion = true) (member : i ∈ s.agreeingSet) :
    s.compared i = { s.vote i with disagree := 0 } := by
  have reference := (server_primary_iff s).mpr ((demotion_iff s).mp demotion).1
  have other : i ≠ s.stage.setup.primary := fun e =>
    primary_not_check s (e ▸ ((mem_agreeingSet_iff s i).mp member).1)
  unfold State.compared
  dsimp only
  rw [reference]
  dsimp only
  rw [if_neg other, if_pos]
  rw [Bool.and_eq_true, List.contains_iff_mem]
  exact ⟨demotion, member⟩

/-- R30: the primary as the reference. -/
theorem compared_primary (usable : s.mayServe s.stage.setup.primary = true) :
    s.compared s.stage.setup.primary =
      ((s.vote s.stage.setup.primary).testPrimary s.demotion).judge (s.setting .votePersistence) := by
  unfold State.compared
  dsimp only
  rw [server_of_primary usable]
  exact (if_pos rfl).trans (if_pos rfl)

/-- R28: a check as the acting reference. -/
theorem compared_acting (reference : s.server = some i) (check : i ∈ s.checkList) : s.compared i = s.vote i := by
  have other : i ≠ s.stage.setup.primary := fun e => primary_not_check s (e ▸ check)
  unfold State.compared
  dsimp only
  rw [reference]
  exact (if_pos rfl).trans (if_neg other)

theorem compared_without_reference (h : s.server = none) : s.compared i = s.vote i := by
  unfold State.compared
  dsimp only
  rw [h]

/-- R27, R28: a channel that neither may serve nor is comparable keeps its record. -/
theorem compared_idle (server : s.mayServe i = false) (comparable : s.comparable i = false) :
    s.compared i = s.vote i := by
  cases reference : s.server with
  | none => exact compared_without_reference reference
  | some r =>
    have other : i ≠ r := fun e => by
      have serves := server_mayServe reference
      rw [← e, server] at serves
      cases serves
    unfold State.compared
    dsimp only
    rw [reference]
    dsimp only
    rw [if_neg other, if_neg, if_neg (by rw [comparable]; decide)]
    rw [Bool.and_eq_true, List.contains_iff_mem, mem_agreeingSet_iff, server]
    rintro ⟨-, -, impossible⟩
    cases impossible

/-- R33: a Stuck channel is not compared. -/
theorem compared_stuck (h : (s.vote i).standing = .stuck) : s.compared i = s.vote i := by
  refine compared_idle (Bool.eq_false_iff.mpr fun serves => ?_) (Bool.eq_false_iff.mpr fun comparable => ?_)
  · cases h.symm.trans ((mayServe_iff s i).mp serves).2
  · rcases comparable_compares comparable with e | e <;> cases h.symm.trans e

theorem compared_compares (h : (s.vote i).Compares) : (s.compared i).Compares := by
  have compares : ∀ agrees, ((s.vote i).compare agrees).Compares := fun agrees => by
    unfold VoteRecord.Compares
    rw [compare_standing]
    exact h
  unfold State.compared
  dsimp only
  split
  · exact h
  · split
    · split
      · exact judge_compares h
      · exact h
    · split
      · exact h
      · split
        · exact judge_compares (compares _)
        · exact h

end

/-! ### The watch step (R32, R33) -/

/-- R27: the comparisons leave the record `v`, unless the watch makes a float Stuck; `w` is the record after the watch
step. -/
def VoteRecord.LeftAs (kind : ChannelKind) (v w : VoteRecord) : Prop :=
  (kind ≠ .encoder → w = { v with watch := none }) ∧
    (kind = .encoder → w.standing ≠ .stuck → w = { v with watch := w.watch })

section
variable {kind : ChannelKind} {count : Word} {last : Option Int} {limit band : Int} {starting compared : VoteRecord}

theorem watchStep_unwatched (h : starting.Compares) (other : kind ≠ .encoder) :
    VoteRecord.watchStep kind count last limit band starting compared = { compared with watch := none } := by
  unfold VoteRecord.watchStep
  cases kind with
  | encoder => exact absurd rfl other
  | off | frequency => rcases h with h | h <;> rw [h]

theorem watchStep_watched (h : starting.Compares) :
    VoteRecord.watchStep .encoder count last limit band starting compared =
      if (starting.nextWatch count last).stuck limit band last
      then { compared.stand .stuck with watch := some (starting.nextWatch count last) }
      else { compared with watch := some (starting.nextWatch count last) } := by
  unfold VoteRecord.watchStep
  rcases h with h | h <;> rw [h]

theorem watchStep_released (h : starting.standing = .stuck) (other : kind ≠ .encoder) :
    VoteRecord.watchStep kind count last limit band starting compared =
      { compared.stand .candidate with watch := none } := by
  unfold VoteRecord.watchStep
  rw [h]
  cases kind with
  | encoder => exact absurd rfl other
  | off | frequency => rfl

theorem watchStep_stuck (h : starting.standing = .stuck) :
    VoteRecord.watchStep .encoder count last limit band starting compared = compared.whileStuck count last := by
  unfold VoteRecord.watchStep
  rw [h]

theorem watchStep_leaves (h : starting.Compares) :
    compared.LeftAs kind (VoteRecord.watchStep kind count last limit band starting compared) := by
  refine ⟨fun other => watchStep_unwatched h other, fun encoder => ?_⟩
  subst encoder
  rw [watchStep_watched h]
  split
  · exact fun free => absurd rfl free
  · exact fun _ => rfl

theorem nextWatch_of_none (h : starting.watch = none) : starting.nextWatch count last = startWatch count last := by
  unfold VoteRecord.nextWatch
  rw [h]

theorem nextWatch_of_some {w : StuckWatch} (h : starting.watch = some w) :
    starting.nextWatch count last = w.advance count last := by
  unfold VoteRecord.nextWatch
  rw [h]

theorem stuck_iff (w : StuckWatch) : w.stuck limit band last = true ↔
    ∃ old now, w.stage = some old ∧ last = some now ∧ limit ≤ (w.settlements : Int) ∧
      band < ((now - old).natAbs : Int) := by
  unfold StuckWatch.stuck
  constructor
  · intro h
    split at h
    · next now old hold =>
      rw [Bool.and_eq_true, decide_eq_true_iff, decide_eq_true_iff] at h
      exact ⟨old, now, hold, rfl, h⟩
    · cases h
  · rintro ⟨old, now, hold, rfl, long, moved⟩
    rw [hold]
    exact Bool.and_eq_true _ _ ▸ ⟨decide_eq_true long, decide_eq_true moved⟩

/-- R32: the stage has not moved since a watch that only starts. -/
theorem startWatch_not_stuck (least : 0 ≤ band) : (startWatch count last).stuck limit band last = false := by
  refine Bool.eq_false_iff.mpr fun h => ?_
  obtain ⟨old, now, hold, hnow, -, moved⟩ := (stuck_iff _).mp h
  have same : old = now := Option.some.inj (hold.symm.trans hnow)
  rw [same, sub_self] at moved
  exact absurd moved (not_lt.mpr least)

theorem compares_not_stuck {v : VoteRecord} (h : v.Compares) : v.standing ≠ .stuck := by
  rcases h with h | h <;> rw [h] <;> decide

theorem watchStep_starts (h : starting.Compares) (hc : compared.Compares) (least : 0 ≤ band)
    (starts : starting.nextWatch count last = startWatch count last) :
    let v := VoteRecord.watchStep .encoder count last limit band starting compared
    v.watch = some (startWatch count last) ∧ v.standing ≠ .stuck := by
  rw [watchStep_watched h, starts, startWatch_not_stuck least]
  exact ⟨rfl, compares_not_stuck hc⟩

theorem watchStep_advances {w : StuckWatch} (h : starting.Compares) (hc : compared.Compares)
    (advances : starting.nextWatch count last = w) :
    let v := VoteRecord.watchStep .encoder count last limit band starting compared
    v.watch = some w ∧ (v.standing = .stuck ↔ w.stuck limit band last = true) ∧
      (v.standing = .stuck → v.disagree = 0 ∧ v.agree = 0) := by
  rw [watchStep_watched h, advances]
  cases stuck : w.stuck limit band last with
  | false =>
    have free : compared.standing ≠ .stuck := compares_not_stuck hc
    exact ⟨rfl, ⟨fun e => absurd e free, fun e => by cases e⟩, fun e => absurd e free⟩
  | true => exact ⟨rfl, ⟨fun _ => rfl, fun _ => rfl⟩, fun _ => ⟨rfl, rfl⟩⟩

theorem whileStuck_changed {v : VoteRecord} {w : StuckWatch} (watched : v.watch = some w) (moved : count ≠ w.count) :
    v.whileStuck count last = { v.stand .candidate with watch := some (startWatch count last) } := by
  unfold VoteRecord.whileStuck
  rw [watched]
  exact if_pos moved

theorem whileStuck_still {v : VoteRecord} {w : StuckWatch} (watched : v.watch = some w) (still : count = w.count) :
    v.whileStuck count last =
      { v with watch := some { w with settlements := countUp Config.watchMax w.settlements } } := by
  unfold VoteRecord.whileStuck
  rw [watched]
  exact if_neg (not_not.mpr still)

end

/-! ### A change of standing (R34) -/

theorem setVotes_attends {s : State} {votes : Vector VoteRecord Config.channels} {i : ChannelNumber}
    (changed : (votes.get i).standing ≠ (s.vote i).standing) : (s.setVotes votes).attends .channelChanged = true := by
  have differ : standingsDiffer s.stage.votes votes = true := by
    unfold standingsDiffer
    exact List.any_eq_true.mpr ⟨i, List.mem_finRange i, bne_iff_ne.mpr (Ne.symm changed)⟩
  exact raiseIf_attends (Or.inr ⟨differ, rfl⟩) nofun

theorem replaceSetup_attends {s : State} {i : ChannelNumber}
    (changed : ((replaceSetup s).vote i).standing ≠ (s.vote i).standing) :
    (replaceSetup s).attends .channelChanged = true := by
  revert changed
  unfold replaceSetup
  split
  · exact fun changed => absurd rfl changed
  · next u _ =>
    intro changed
    refine setVotes_attends (s := s) (i := i) fun same => changed ?_
    unfold State.vote
    rw [setStage_stage, setVotes_stage]
    exact same

theorem takeVote_attends {s : State} {i : ChannelNumber}
    (changed : ((replaceSetup s).vote i).standing ≠ (s.vote i).standing ∨
      ((replaceSetup s).settledVote i).standing ≠ ((replaceSetup s).vote i).standing) :
    (takeVote s).attends .channelChanged = true := by
  unfold takeVote
  rcases changed with h | h
  · exact (raiseIf_frame _ _ _ (by decide)).raised _ (replaceSetup_attends h)
  · refine setVotes_attends (i := i) ?_
    have settled : (Vector.ofFn (replaceSetup s).settledVote).get i = (replaceSetup s).settledVote i :=
      Vector.getElem_ofFn i.isLt
    rw [settled]
    exact h

/-- R25: the state of a settlement under the setup that comes into force, with the records that the channels start
from. -/
def State.voting (s : State) : State := replaceSetup (s.setStage { s.stage with interval := nextInterval s })

theorem stageIntervalExpiry_channelChanged {s : State} {i : ChannelNumber}
    (changed : (s.voting.vote i).standing ≠ (s.vote i).standing ∨
      (s.voting.settledVote i).standing ≠ (s.voting.vote i).standing) :
    (stageIntervalExpiry s).attends .channelChanged = true := by
  have voted := takeVote_attends (s := s.setStage { s.stage with interval := nextInterval s }) changed
  rw [stageIntervalExpiry_eq]
  exact (consumePublication_spread _).raised ((raiseIf_frame _ _ _ (by decide)).raised _ voted)

/-! ### The state that the vote is taken in -/

theorem voting_vote (s : State) (i : ChannelNumber) : s.voting.vote i =
    if (s.stage.pendingSetup.getD s.stage.setup).role i = s.stage.setup.role i then s.vote i
    else VoteRecord.fresh ((s.stage.pendingSetup.getD s.stage.setup).role i) :=
  replaceSetup_vote (s.setStage { s.stage with interval := nextInterval s }) i

theorem voting_setup (s : State) : s.voting.stage.setup = s.stage.pendingSetup.getD s.stage.setup :=
  congrArg StageBlock.setup (replaceSetup_stage (s.setStage { s.stage with interval := nextInterval s }))

theorem voting_record (s : State) : s.voting.stage.record = s.stage.record := by
  unfold State.voting
  rw [replaceSetup_stage]
  rfl

theorem replaceSetup_frame (s : State) : ∃ b, CableFrame (s.setStage b) (replaceSetup s) := by
  unfold replaceSetup
  split
  · exact ⟨s.stage, CableFrame.refl s⟩
  · obtain ⟨b, h⟩ := setVotes_frame s _
    exact ⟨_, h.lift_stage _⟩

theorem voting_channels (s : State) : s.voting.channels = s.channels := by
  obtain ⟨b, h⟩ := replaceSetup_frame (s.setStage { s.stage with interval := nextInterval s })
  exact h.channels

theorem voting_setting (s : State) (x : Setting) : s.voting.setting x = s.settings.read x := by
  obtain ⟨b, h⟩ := replaceSetup_frame (s.setStage { s.stage with interval := nextInterval s })
  exact congrArg (fun t : Settings => t.read x) h.settings

end Sys2Proof.Machine
end

section
/-! What a settlement leaves of each channel's vote record (R25 to R34): the cases of the comparisons and of the watch. -/

namespace Sys2Proof.Machine

/-! ### The records that the comparisons leave (R27 to R31) -/

/-- R27: the comparisons of a settlement leave the record `v` of a channel, unless the watch makes it Stuck. -/
def State.LeavesVote (z : State) (i : ChannelNumber) (v : VoteRecord) : Prop :=
  v.LeftAs (z.channel i).kind (z.settledVote i)

section
variable {z : State} {i r : ChannelNumber}

theorem leavesVote_of_compared {v : VoteRecord} (h : (z.vote i).Compares) (e : z.compared i = v) : z.LeavesVote i v :=
  e ▸ watchStep_leaves h

/-- R28, R29, R31: the counts and the standing of a channel compared with the reference. -/
theorem leavesVote_comparable (least : 1 ≤ z.setting .votePersistence) (reference : z.server = some r) (other : i ≠ r)
    (member : ¬ (z.demotion = true ∧ i ∈ z.agreeingSet)) (comparable : z.comparable i = true) :
    let v := z.vote i
    let agree := countUp Config.voteCountMax v.agree
    let disagree := countUp Config.voteCountMax v.disagree
    let persistence := z.setting .votePersistence
    (z.agree i r = true → v.standing = .disagreeing → persistence ≤ (agree : Int) →
      z.LeavesVote i (v.stand .candidate)) ∧
    (z.agree i r = true → v.standing = .candidate ∨ (agree : Int) < persistence →
      z.LeavesVote i { v with agree := agree, disagree := 0 }) ∧
    (z.agree i r = false → v.standing = .candidate → persistence ≤ (disagree : Int) →
      z.LeavesVote i (v.stand .disagreeing)) ∧
    (z.agree i r = false → v.standing = .disagreeing ∨ (disagree : Int) < persistence →
      z.LeavesVote i { v with disagree := disagree, agree := 0 }) := by
  have compared := compared_comparable reference other member comparable
  have leaves : ∀ {v}, ((z.vote i).compare (z.agree i r)).judge (z.setting .votePersistence) = v → z.LeavesVote i v :=
    fun e => leavesVote_of_compared (comparable_compares comparable) (compared.trans e)
  intro v agree disagree persistence
  refine ⟨fun agrees disagreeing enough => leaves ?_, fun agrees few => leaves ?_,
    fun differs candidate enough => leaves ?_, fun differs few => leaves ?_⟩
  · rw [agrees]
    exact judge_returns (v := (z.vote i).compare true) enough disagreeing
  · rw [agrees]
    exact judge_agrees least few
  · rw [differs]
    exact judge_persists (v := (z.vote i).compare false) enough candidate
  · rw [differs]
    exact judge_differs least few

/-- R30: the primary as the reference. -/
theorem leavesVote_primary (least : 1 ≤ z.setting .votePersistence)
    (usable : z.mayServe z.stage.setup.primary = true) :
    let p := z.stage.setup.primary
    let v := z.vote p
    let disagree := countUp Config.voteCountMax v.disagree
    let persistence := z.setting .votePersistence
    (z.demotion = false → z.LeavesVote p { v with disagree := 0, agree := 0 }) ∧
    (z.demotion = true → (disagree : Int) < persistence →
      z.LeavesVote p { v with disagree := disagree, agree := 0 }) ∧
    (z.demotion = true → persistence ≤ (disagree : Int) → z.LeavesVote p (v.stand .disagreeing)) := by
  intro p v disagree persistence
  have candidate : v.standing = .candidate := ((mayServe_iff z p).mp usable).2
  have tested : ∀ b, (v.testPrimary b).standing ≠ .disagreeing := fun b (e : v.standing = .disagreeing) => by
    cases e.symm.trans candidate
  have leaves : ∀ {w}, (v.testPrimary z.demotion).judge persistence = w → z.LeavesVote p w := fun e =>
    leavesVote_of_compared (Or.inl candidate) ((compared_primary usable).trans e)
  refine ⟨fun kept => leaves ?_, fun demoted few => leaves ?_, fun demoted enough => leaves ?_⟩
  · rw [kept]
    refine judge_keeps (fun _ => ?_) fun e => absurd e (tested false)
    show ((0 : Nat) : Int) < z.setting .votePersistence
    omega
  · rw [demoted]
    exact judge_keeps (fun _ => few) fun e => absurd e (tested true)
  · rw [demoted]
    exact judge_persists (v := v.testPrimary true) enough candidate

/-- R30: a check of the set that demotes the primary. -/
theorem leavesVote_member (demotion : z.demotion = true) (member : i ∈ z.agreeingSet) :
    z.LeavesVote i { z.vote i with disagree := 0 } :=
  leavesVote_of_compared (Or.inl ((mayServe_iff z i).mp ((mem_agreeingSet_iff z i).mp member).2).2)
    (compared_member demotion member)

/-- R27, R28, R31: an acting reference, a channel that is not Valid, and a channel without a reference. -/
theorem leavesVote_kept (h : (z.vote i).Compares)
    (kept : z.server = some i ∧ i ∈ z.checkList ∨ (z.channels.get i).condition ≠ .valid ∨ z.server = none) :
    z.LeavesVote i (z.vote i) := by
  refine leavesVote_of_compared h ?_
  rcases kept with ⟨reference, check⟩ | invalid | none
  · exact compared_acting reference check
  · exact compared_idle (Bool.eq_false_iff.mpr fun serves => invalid ((mayServe_iff z i).mp serves).1)
      (Bool.eq_false_iff.mpr fun comparable => invalid ((comparable_iff z i).mp comparable).1)
  · exact compared_without_reference none

/-! ### The records that the watch leaves (R23, R32, R33) -/

theorem settledVote_excluded (h : (z.vote i).standing = .excluded) : z.settledVote i = z.vote i := by
  have kept : ∀ kind count last limit band, VoteRecord.watchStep kind count last limit band (z.vote i) (z.compared i) =
      z.vote i := fun kind count last limit band => by
    unfold VoteRecord.watchStep
    rw [h, compared_excluded h]
  exact kept _ _ _ _ _

/-- The vote record of an encoder after a settlement. -/
theorem settledVote_encoder (encoder : (z.channel i).kind = .encoder) :
    z.settledVote i = VoteRecord.watchStep .encoder (z.channel i).count z.stage.record.stage (z.setting .stuckLimit)
      (z.setting .agreementBand) (z.vote i) (z.compared i) := by
  unfold State.settledVote
  rw [encoder]

theorem settledVote_starts (encoder : (z.channel i).kind = .encoder) (h : (z.vote i).Compares)
    (least : 0 ≤ z.setting .agreementBand)
    (starts : (z.vote i).watch = none ∨ ∃ w, (z.vote i).watch = some w ∧ (z.channel i).count ≠ w.count) :
    (z.settledVote i).watch = some (startWatch (z.channel i).count z.stage.record.stage) ∧
      (z.settledVote i).standing ≠ .stuck := by
  rw [settledVote_encoder encoder]
  refine watchStep_starts h (compared_compares h) least ?_
  rcases starts with none | ⟨w, watched, moved⟩
  · exact nextWatch_of_none none
  · exact (nextWatch_of_some watched).trans (if_pos moved)

theorem settledVote_advances {w : StuckWatch} (encoder : (z.channel i).kind = .encoder) (h : (z.vote i).Compares)
    (watched : (z.vote i).watch = some w) (still : (z.channel i).count = w.count) :
    let advanced : StuckWatch := { w with
      settlements := countUp Config.watchMax w.settlements, stage := w.stage.or z.stage.record.stage }
    (z.settledVote i).watch = some advanced ∧
      ((z.settledVote i).standing = .stuck ↔
        ∃ old now, advanced.stage = some old ∧ z.stage.record.stage = some now ∧
          z.setting .stuckLimit ≤ (advanced.settlements : Int) ∧
          z.setting .agreementBand < ((now - old).natAbs : Int)) ∧
      ((z.settledVote i).standing = .stuck → (z.settledVote i).disagree = 0 ∧ (z.settledVote i).agree = 0) := by
  intro advanced
  rw [settledVote_encoder encoder, ← stuck_iff]
  exact watchStep_advances h (compared_compares h)
    ((nextWatch_of_some watched).trans (if_neg (not_not.mpr still)))

theorem settledVote_released (other : (z.channel i).kind ≠ .encoder) (h : (z.vote i).standing = .stuck) :
    z.settledVote i = { standing := .candidate, disagree := 0, agree := 0, watch := none } :=
  watchStep_released h other

theorem settledVote_stuck {w : StuckWatch} (encoder : (z.channel i).kind = .encoder)
    (h : (z.vote i).standing = .stuck) (watched : (z.vote i).watch = some w) :
    ((z.channel i).count ≠ w.count → z.settledVote i =
      { standing := .candidate, disagree := 0, agree := 0,
        watch := some (startWatch (z.channel i).count z.stage.record.stage) }) ∧
    ((z.channel i).count = w.count → z.settledVote i =
      { z.vote i with watch := some { w with settlements := countUp Config.watchMax w.settlements } }) := by
  rw [settledVote_encoder encoder, watchStep_stuck h, compared_stuck h]
  exact ⟨fun moved => whileStuck_changed watched moved, fun still => whileStuck_still watched still⟩

end

/-! ### The state that the vote is taken in, by the statement's names -/

theorem fresh_eq (role : Role) : VoteRecord.fresh role =
    { standing := if role = .neither then .excluded else .candidate, disagree := 0, agree := 0, watch := none } := by
  cases role <;> rfl

theorem agree_iff (z : State) (i j : ChannelNumber) : z.agree i j = true ↔
    (((z.channels.get i).reading.getD 0 - (z.channels.get j).reading.getD 0).natAbs : Int) ≤
      z.setting .agreementBand := decide_eq_true_iff

/-- R28: what the reference of a settlement is, by which channels may serve. -/
theorem server_of_lowest {z : State} {r : ChannelNumber} (unusable : ¬ z.mayServe z.stage.setup.primary = true)
    (check : r ∈ z.checkList) (usable : z.mayServe r = true)
    (lowest : ∀ j, j < r → j ∈ z.checkList → ¬ z.mayServe j = true) : z.server = some r :=
  server_of_lowest_check (Bool.eq_false_iff.mpr unusable) check usable fun j below hj =>
    Bool.eq_false_iff.mpr (lowest j below hj)

end Sys2Proof.Machine
end

section
/-! The vote at the end of an interval, over the model's names for what the statement writes out. -/

open Sys2Proof Sys2Proof.Machine

/-- Settles O34: the settlement's records by the cases of the comparisons and of the watch, in the state that the vote
is taken in. -/
theorem channelsAreComparedAndFloatsWatched : Obligations.ChannelsAreComparedAndFloatsWatched := by
  unfold Obligations.ChannelsAreComparedAndFloatsWatched
  intro s running persistent wide setup p checks start band persistence last valid usable check gap demoting
  have hstart : start = s.voting.vote := funext fun i => by
    rw [voting_vote, fresh_eq]
    rfl
  have primary : p = s.voting.stage.setup.primary := congrArg VoteSetup.primary (voting_setup s).symm
  have hvalid : ∀ i, valid i ↔ (s.voting.channels.get i).condition = .valid := fun i => by
    rw [voting_channels]
  have husable : ∀ i, usable i ↔ s.voting.mayServe i = true := fun i => by
    rw [mayServe_iff, ← hvalid]
    show valid i ∧ (start i).standing = .candidate ↔ _
    rw [hstart]
    rfl
  have hcheck : ∀ i, check i ↔ i ∈ s.voting.checkList := fun i => by
    rw [mem_checkList_iff, voting_setup]
  have hgap : ∀ i j, gap i j ≤ band ↔ s.voting.agree i j = true := fun i j => by
    rw [agree_iff, voting_channels, voting_setting]
  have hwide : ∀ i j, band < gap i j ↔ s.voting.agree i j = false := fun i j => by
    rw [← Bool.not_eq_true, ← hgap, not_le]
  have hset : ∀ i, i ∈ s.voting.agreeingSet ↔ check i ∧ usable i := fun i => by
    rw [mem_agreeingSet_iff, hcheck, husable]
  have hdemoting : demoting ↔ s.voting.demotion = true := by
    rw [demotion_iff, ← primary, ← husable]
    simp only [hset, ← hgap, ← hwide]
    refine and_congr_right fun _ => and_congr ?_ (and_congr ?_ ?_)
    · exact exists₂_congr fun i j => ⟨fun ⟨distinct, ci, cj, ui, uj⟩ => ⟨distinct, ⟨ci, ui⟩, cj, uj⟩,
        fun ⟨distinct, ⟨ci, ui⟩, cj, uj⟩ => ⟨distinct, ci, cj, ui, uj⟩⟩
    · exact forall_congr' fun i => and_imp.symm
    · exact ⟨fun h i ⟨ci, ui⟩ j ⟨cj, uj⟩ => h i j ci cj ui uj, fun h i j ci cj ui uj => h i ⟨ci, ui⟩ j ⟨cj, uj⟩⟩
  have least : 1 ≤ s.voting.setting .votePersistence := by
    rw [voting_setting]
    exact persistent
  have least_band : 0 ≤ s.voting.setting .agreementBand := by
    rw [voting_setting]
    exact wide
  have settled : ∀ i, (stageIntervalExpiry s).stage.votes.get i = s.voting.settledVote i := stageIntervalExpiry_vote s
  have channel : ∀ i, s.voting.channel i = s.channels.get i := fun i =>
    congrArg (fun c : Vector Channel Config.channels => c.get i) (voting_channels s)
  have stage : s.voting.stage.record.stage = last := congrArg StageRecord.stage (voting_record s)
  have limit := voting_setting s .stuckLimit
  have hband : s.voting.setting .agreementBand = band := voting_setting s .agreementBand
  have hpersistence : s.voting.setting .votePersistence = persistence := voting_setting s .votePersistence
  refine ⟨stageIntervalExpiry s, exec_stageIntervalExpiry running, ?_⟩
  have changed := fun i => stageIntervalExpiry_channelChanged (s := s) (i := i)
  generalize stageIntervalExpiry s = t at *
  clear_value demoting gap check usable valid last persistence band start checks p
  subst hstart primary hband hpersistence stage
  have hleaves : ∀ i v, s.voting.LeavesVote i v →
      ((s.channels.get i).kind ≠ .encoder → t.stage.votes.get i = { v with watch := none }) ∧
        ((s.channels.get i).kind = .encoder → (t.stage.votes.get i).standing ≠ .stuck →
          t.stage.votes.get i = { v with watch := (t.stage.votes.get i).watch }) := fun i v h => by
    rw [settled, ← channel]
    exact h
  have acting : ∀ r, ¬ usable s.voting.stage.setup.primary → check r → usable r →
      (∀ j, j < r → check j → ¬ usable j) → s.voting.server = some r := fun r unusable check_r usable_r lowest =>
    server_of_lowest (fun e => unusable ((husable _).mpr e)) ((hcheck r).mp check_r) ((husable r).mp usable_r)
      fun j below check_j e => lowest j below ((hcheck j).mpr check_j) ((husable j).mpr e)
  refine ⟨?standing, ?excluded, ?_, ?watch, ?released, ?stuck⟩
  case standing =>
    rintro ⟨i, change⟩
    refine changed i (change.imp_right ?_)
    rw [settled]
    exact id
  case excluded =>
    intro i excluded
    rw [settled]
    exact settledVote_excluded excluded
  case watch =>
    intro i encoder compares count started starts
    rw [← channel] at encoder
    have begins := settledVote_starts encoder compares
    rw [channel, ← settled] at begins
    refine ⟨fun none => begins least_band (Or.inl none), fun w watched =>
      ⟨fun moved => begins least_band (Or.inr ⟨w, watched, moved⟩), fun still => ?_⟩⟩
    have advances := settledVote_advances encoder compares watched ((congrArg Channel.count (channel i)).trans still)
    rw [← settled, limit] at advances
    exact advances
  case released =>
    intro i other stuck
    rw [settled]
    rw [← channel] at other
    exact settledVote_released other stuck
  case stuck =>
    intro i w encoder stuck watched
    rw [settled, ← channel]
    rw [← channel] at encoder
    exact settledVote_stuck encoder stuck watched
  intro leaves
  refine ⟨fun i r other reference valid_i => ?_, fun i compares kept => ?_, fun usable_p => ?_,
    fun i demotes check_i usable_i => ?_⟩
  · intro v compared free agree disagree
    have server : s.voting.server = some r := by
      rcases reference with ⟨rfl, usable_r⟩ | ⟨unusable, check_r, usable_r, lowest⟩
      · exact server_of_primary ((husable _).mp usable_r)
      · exact acting r unusable check_r usable_r lowest
    have member : ¬ (s.voting.demotion = true ∧ i ∈ s.voting.agreeingSet) := fun ⟨demotes, inside⟩ =>
      free ⟨hdemoting.mpr demotes, ((hset i).mp inside).2⟩
    have comparable : s.voting.comparable i = true := by
      rw [comparable_iff, ← hvalid, ← hcheck]
      exact ⟨valid_i, compared⟩
    obtain ⟨returns, agrees, persists, differs⟩ := leavesVote_comparable least server other member comparable
    exact ⟨fun near disagreeing enough => hleaves _ _ (returns ((hgap i r).mp near) disagreeing enough),
      fun near few => hleaves _ _ (agrees ((hgap i r).mp near) few),
      fun far candidate enough => hleaves _ _ (persists ((hwide i r).mp far) candidate enough),
      fun far few => hleaves _ _ (differs ((hwide i r).mp far) few)⟩
  · refine hleaves i _ (leavesVote_kept compares ?_)
    rcases kept with ⟨unusable, check_i, usable_i, lowest⟩ | invalid | ⟨unusable, none⟩
    · exact Or.inl ⟨acting i unusable check_i usable_i lowest, (hcheck i).mp check_i⟩
    · exact Or.inr (Or.inl fun e => invalid ((hvalid i).mpr e))
    · refine Or.inr (Or.inr (server_of_none (Bool.eq_false_iff.mpr fun e => unusable ((husable _).mpr e)) ?_))
      exact fun j check_j => Bool.eq_false_iff.mpr fun e => none j ((hcheck j).mpr check_j) ((husable j).mpr e)
  · intro v disagree
    obtain ⟨kept, counted, demoted⟩ := leavesVote_primary least ((husable _).mp usable_p)
    exact ⟨fun h => hleaves _ _ (kept (Bool.eq_false_iff.mpr fun e => h (hdemoting.mpr e))),
      fun h few => hleaves _ _ (counted (hdemoting.mp h) few),
      fun h enough => hleaves _ _ (demoted (hdemoting.mp h) enough)⟩
  · exact hleaves i _ (leavesVote_member (hdemoting.mp demotes) ((hset i).mpr ⟨check_i, usable_i⟩))

end
